-- ==== Sys2Proof/Word.lean ====
section
/-! DEFINITION. The word types of the Onapizin and their plainest arithmetic (spec 04 R90, R91). -/
namespace Sys2Proof

/-- One byte of memory. -/
abbrev Byte := BitVec 8

/-- The content of a 32-bit register (R13). -/
abbrev Word := BitVec 32

/-- A 64-bit value: a register pair, an address, a program counter (R27, R91). -/
abbrev DWord := BitVec 64

/-- A 128-bit value: a register quad (R91). -/
abbrev QWord := BitVec 128

/-- A set of lanes, bit n standing for lane n (R36). -/
abbrev Mask := BitVec 64

end Sys2Proof
end

