-- ==== Sys2Proof/Config.lean ====
section
/-! DEFINITION. What an implementation fixes and what the spec leaves open: the counts of a SKU (R1) and the free
values, constants with no body, so that nothing can be proved of what they are. -/
namespace Sys2Proof.Config

open Sys2Proof

/-- C-dies of the package: 4 on a K4, 2 on a K2 (R1). -/
inductive Sku where
  /-- Onapizin K4. -/
  | k4
  /-- Onapizin K2. -/
  | k2
deriving DecidableEq, Repr

/-- Number of C-dies (R1). -/
def Sku.dies : Sku → Nat
  | .k4 => 4
  | .k2 => 2

/-- Module power figure in watts (R6, R456). -/
def Sku.watts : Sku → Nat
  | .k4 => 1600
  | .k2 => 900

/-- Gigabytes (GiB) of HBM4E (R1, R398). -/
def Sku.hbmGiB : Sku → Nat
  | .k4 => 512
  | .k2 => 256

/-- Largest LPDDR6 capacity in GiB (R1, R382). -/
def Sku.lpddrGiB : Sku → Nat
  | .k4 => 256
  | .k2 => 128

/-- Cores of one C-die (R1: 96 cores in 48 twin pairs). -/
def coresPerDie : Nat := 96

/-- FREE VALUE: the undefined byte at an offset of a window or matrix memory that nothing has written since it was
given out (R13). The first argument names the giving out, the second the offset. DESIGN CHOICE, log entry 5. -/
opaque freeByte : Nat → Nat → Byte

/-- FREE VALUE: the dither of one AP-mode conversion (R119, R120), used only within the bounds of R120. DESIGN CHOICE, log entry 6. -/
opaque apDither : Nat → Nat

/-- FREE VALUE: the fixed hash of PA bits 51:7 that indexes a snoop-filter slice (R407: "a fixed hash"). DESIGN CHOICE, log entry 7. -/
opaque filterHash : Nat → Nat

/-- FREE VALUE: the set of a slice of a die's L2 in which a line lies, which the spec does not state (R387). DESIGN CHOICE, log entry 61. -/
opaque l2Hash : Nat → Nat

/-- FREE VALUE: what the bitcells of a byte hold in a granule that a soft error has struck during compute residence, which an MMUL reads as
it is (R328). DESIGN CHOICE, log entry 17. -/
opaque struckByte : Nat → Nat → Byte

/-- FREE VALUE: the words that a Cooper reads from a ring or save slot whose bytes are not those it wrote there (R373). DESIGN CHOICE,
log entry 15. -/
opaque slotWord : List Byte → Nat → BitVec 32

/-- FREE VALUE: whether a replay of a link fails too, by the number drawn for it (R403). DESIGN CHOICE, log entry 46. -/
opaque replayFails : Nat → Bool

/-- The SHA-384 digest, which the spec names by its standard only (R452, R454). DESIGN CHOICE, log entry 8. -/
opaque sha384 : List Byte → BitVec 384

/-- ECDSA over P-384: does the signature verify, from the digest, the public key and the signature bytes (R452).
DESIGN CHOICE, log entry 8. -/
opaque ecdsaVerify : BitVec 384 → List Byte → List Byte → Bool

/-- The private identity key that the boot root derives from the fused secret, its public key, and the X.509 certificate chain to that key
which the flash holds (R453). DESIGN CHOICE, log entry 8. -/
opaque identityKey : BitVec 384 → BitVec 384
/-- Public key of a private P-384 key. DESIGN CHOICE, log entry 8. -/
opaque publicKey : BitVec 384 → List Byte
/-- The chain from a Jufort root to a public key. DESIGN CHOICE, log entry 8. -/
opaque certificateChain : List Byte → List Byte

/-- The signature of a message under a private key (R453, R454). DESIGN CHOICE, log entry 8. -/
opaque identitySign : BitVec 384 → List Byte → List Byte

/-- The AES-256-GCM key of a session, from the transcript of its key exchange (R454). DESIGN CHOICE, log entry 8. -/
opaque sessionKey : List Byte → BitVec 256
/-- A message of a session sealed with AES-256-GCM under its key (R454). DESIGN CHOICE, log entry 8. -/
opaque aes256GcmSeal : BitVec 256 → List Byte → List Byte

/-- The part of an SPDM response that the spec leaves to DMTF SPDM 1.3 (R454): from the request's code, the request and
the session's transcript. DESIGN CHOICE, log entry 8. -/
opaque spdmResponse : Nat → List Byte → List Byte → List Byte

/-- What the policy tables within a firmware body say, in a layout the spec does not give: the digest of the tables (R454), the
hash of the key for the operating system (R451), and whether a CXL port is in host role (R420). DESIGN CHOICE, log entry 8. -/
opaque policyDigest : List Byte → BitVec 384
/-- Hash of the operating system's key. DESIGN CHOICE, log entry 8. -/
opaque policyKeyHash : List Byte → BitVec 384
/-- The port is in host role. DESIGN CHOICE, log entry 8. -/
opaque policyHostRole : List Byte → Nat → Bool
/-- The module power limit in watts (R451, R457). DESIGN CHOICE, log entry 8. -/
opaque policyWatts : List Byte → Nat

/-- FREE VALUES: what the runtime and the operating system set up once they run: the device number, the entries of the route table by device
number, and the export table (R435, R436). DESIGN CHOICE, log entry 53. -/
opaque deviceNumber : List Byte → Nat
/-- Entries of the route table. DESIGN CHOICE, log entry 53. -/
opaque routeTable : List Byte → List (Nat × BitVec 128)
/-- Source device, source ASID and local ASID. DESIGN CHOICE, log entry 53. -/
opaque exportTable : List Byte → List (Nat × Nat × Nat)

/-- FREE VALUE: whether an image received in recovery is meant for slot B, by the number drawn for it (R451). DESIGN CHOICE, log entry 18. -/
opaque recoverySlotB : Nat → Bool

/-- FREE VALUE (DESIGN CHOICE, log entry 18): frames of 64 KiB that the bridge maps at boot from the memory devices that its ports in host
role face (R398, R420). -/
opaque cxlFrames : List Byte → Nat

/-- Whether a firmware that boots with a higher SVN advances the fused counter, which it may do (R452). DESIGN CHOICE, log entry 8. -/
opaque advancesSvn : List Byte → Bool

/-- Reports over the management port: of a thermal trip (R458) and of unused LPDDR6 in GiB (R382). DESIGN CHOICE, log entry 8. -/
opaque tripMessage : List Byte
/-- Report of unused LPDDR6. DESIGN CHOICE, log entry 8. -/
opaque ddrMessage : Nat → List Byte

/-- The digest of the boot ROM, measurement 1 (R454). DESIGN CHOICE, log entry 8. -/
opaque bootRomDigest : BitVec 384

end Sys2Proof.Config
end

