-- ==== Sys2Proof/Syntax.lean ====
section
/-! DEFINITION. The instructions and events of the Onapizin: one constructor of `Instr` for each row of
spec/opcode_table.json (03 R85 for the encoded rows, 95 for the machine's own indivisible steps), and the types of
their operands. -/
namespace Sys2Proof

/-- A 7-bit lane-register field (R65). -/
inductive VReg where
  /-- v0 to v123. -/
  | v (n : Fin 124)
  /-- vz: reads as zero, discards writes (R17). -/
  | z
  /-- v[x0] to v[x2]: the register that the lane's index register names (R16). -/
  | ix (k : Fin 3)
deriving DecidableEq, Repr

/-- Lane registers v0 to v31 of the 16-bit form (R63). -/
abbrev LReg := Fin 32

/-- Scalar registers s0 to s63 (R66). -/
abbrev SReg := Fin 64

/-- Predicates p0 to p6, and 7 for pt (R66). -/
abbrev PReg := Fin 8

/-- Index registers x0 to x2 (R57). -/
abbrev XReg := Fin 3

/-- Tags 0 to 63 of a warp (R229). -/
abbrev Tag := Fin 64

/-- Rounding field of CVT and FRND (R100). -/
inductive Rnd where
  | rne | rz | rdn | rup | rna | sr | dyn
deriving DecidableEq, Repr

/-- The special registers of R21. -/
inductive SpReg where
  | lane | wwid | warp | team | tid | gtid | sid | lastsid | core | die | dev | grid | depth | clock | time
  | tagrdy | tagerr | fflags | wmode | txst | rsp | tflags | tcause | tepc | tmask | trec | tscratch | asid
deriving DecidableEq, Repr

/-- The registers SWR may write, each with its source (R261). -/
inductive SwrDst where
  /-- fflags := a lane register. -/
  | fflags (a : VReg)
  /-- tflags := a lane register. -/
  | tflags (a : VReg)
  /-- wmode := a scalar register. -/
  | wmode (a : SReg)
  /-- tscratch := a scalar pair. -/
  | tscratch (a : SReg)
  /-- A register without write access that SWR names; refused by WellFormed (R22). -/
  | readOnly (r : SpReg) (a : BitVec 7)
deriving DecidableEq, Repr

/-- The operations of ATOM, ATOM64 and CAS (R203, R205). -/
inductive AtomKind where
  | add | minI | maxI | and | or | xor | xchg | faddF32
  | addI64 | minI64 | maxI64 | minN64 | maxN64 | xchg64 | addI128 | faddF64
  | cas32 | cas64 | cas128
deriving DecidableEq, Repr

/-- A holder of lines: C-dies 0 to 3, and 4 for H (R404). -/
abbrev Holder := Fin 5

/-- The agents of R277. -/
inductive Agent where
  /-- A thread: the warp's number and the lane. -/
  | thread (w lane : Nat)
  /-- The bulk copy engine of a core. -/
  | engine (die core : Nat)
  /-- The Cooper of a core. -/
  | cooper (die core : Nat)
  /-- A die dispatcher. -/
  | dispatcher (die : Nat)
  /-- An H-die core or engine. -/
  | hdie
  /-- A CXL host or device through the bridge. -/
  | host
  /-- The Smine Remote transport. -/
  | remote
deriving DecidableEq, Repr

/-- To whom a posted store becomes visible (R283). -/
inductive PubTarget where
  /-- Its visibility point for one agent. -/
  | agent (a : Agent)
  /-- Its package point. -/
  | package
deriving DecidableEq, Repr

/-- A conversion of ARRAY_STEP whose witness check fails (R318): macro p, segment q of it (0 to 7), and how many attempts
in a row fail. -/
structure WitnessFail where
  p : Nat
  seg : Nat
  attempts : Nat
deriving DecidableEq, Repr

/-- The kind of an access that meets a fault (R395 word 1 bits 1:0). -/
inductive Access where
  | read | write | execute | atomic
deriving DecidableEq, Repr

/-- Whose plain store WRP applies at the home (R409, R411). -/
inductive WrpSrc where
  /-- The oldest store of a warp that has not performed. -/
  | warp (w : Nat)
  /-- A store of another agent: its physical address and bytes. -/
  | agent (a : Agent) (pa : Nat) (bytes : List Byte)
deriving DecidableEq, Repr

/-- A Smine Remote frame as it stands on the wire after the Ethernet addresses (R437): the EtherType, the fields of the 40-byte header, the
payload and the CRC-32C. -/
structure Frame where
  etherType : BitVec 16
  /-- Version in bits 7:4, kind in bits 3:0: 0 PUT data, 1 GET request, 2 GET data, 3 ADD data, 4 acknowledgement. -/
  vk : Byte
  lines : Byte
  /-- The reserved bytes at 0x02. -/
  rsv2 : BitVec 16
  src : Word
  dst : Word
  seq : Word
  cack : Word
  sack : Word
  ra : DWord
  xfer : Word
  asid : BitVec 16
  /-- The reserved bytes at 0x26. -/
  rsv26 : BitVec 16
  payload : List Byte
  crc : Word
deriving DecidableEq, Repr

/-- Why a REM transfer ends REMOTE (R440). -/
inductive RemCause where
  | route | exportTable | remoteFault | permission | poison | retransmission | deviceReset
deriving DecidableEq, Repr

/-- Where a soft error strikes (R441). -/
inductive SoftLoc where
  /-- A byte of HBM4E, LPDDR6 or a CXL device, by physical address. -/
  | memory (pa : Nat)
  /-- A byte of a core's L1 data, by physical address. -/
  | l1 (die core pa : Nat)
  /-- A byte of a die's L2 data, by physical address. -/
  | l2 (die pa : Nat)
  /-- A line of a core's L1 instruction cache. -/
  | icache (die core : Nat)
  /-- A register-file word. -/
  | laneReg (w lane reg : Nat)
  /-- A private-window granule. -/
  | window (w lane off : Nat)
  /-- A return-stack entry, counted from the top. -/
  | stack (w lane entry : Nat)
  /-- A word of a warp's spill area, by the frontier entry it holds, the highest ranked first. -/
  | spill (w entry : Nat)
  /-- A granule of array memory, by byte offset in the core's 40 macros. -/
  | array (die core off : Nat)
  | rowBuffer (die core off : Nat)
  | scale (die core off : Nat)
  | accum (die core off : Nat)
  /-- An entry of a warp's shadow log, counted from the newest. -/
  | shadowLog (w entry : Nat)
  /-- Frontier, scalar, predicate or index registers or tags of a warp. -/
  | warpState (w : Nat)
  /-- The Cooper store of a core, struck in a record of a team. -/
  | cooper (die core gk team : Nat)
  /-- An entry of a core's L1 TLB, the most recently used first. -/
  | tlb (die core entry : Nat)
  /-- An entry of a die's L2 TLB. -/
  | l2tlb (die entry : Nat)
  /-- A directory or snoop-filter entry of a die. -/
  | directory (die : Nat)
  /-- A CXL device that fails entirely, by the first frame of tier 2 on it and how many it holds. -/
  | device (first count : Nat)
deriving DecidableEq, Repr

/-- Every row of spec/opcode_table.json. `b` is the boundary bit B (R51). Events carry what they act on: `w` the number of
a warp, `gk` the number of a pushed launch record's grid, `die` and `core` a place, `line` a physical address shifted
right by 7. -/
inductive Instr where
  /-- ADD (R126): Adds two 32-bit lane registers modulo 2^32 in each active lane. -/
  | add (d : VReg) (a : VReg) (c : VReg) (b : Bool)
  /-- SUB (R126): Subtracts two 32-bit lane registers modulo 2^32. -/
  | sub (d : VReg) (a : VReg) (c : VReg) (b : Bool)
  /-- MUL (R126): Writes the low 32 bits of the product of two lane registers. -/
  | mul (d : VReg) (a : VReg) (c : VReg) (b : Bool)
  /-- MULHI_I32 (R126): Writes the high 32 bits of the signed 64-bit product. -/
  | mulhiI32 (d : VReg) (a : VReg) (c : VReg) (b : Bool)
  /-- MULHI_N32 (R126): Writes the high 32 bits of the unsigned 64-bit product. -/
  | mulhiN32 (d : VReg) (a : VReg) (c : VReg) (b : Bool)
  /-- ABS (R126): Writes the absolute value of a signed 32-bit register. -/
  | abs (d : VReg) (a : VReg) (b : Bool)
  /-- NEG (R126): Writes the two's-complement negation of a 32-bit register. -/
  | neg (d : VReg) (a : VReg) (b : Bool)
  /-- MIN_I32 (R126): Writes the signed minimum of two registers. -/
  | minI32 (d : VReg) (a : VReg) (c : VReg) (b : Bool)
  /-- MAX_I32 (R126): Writes the signed maximum of two registers. -/
  | maxI32 (d : VReg) (a : VReg) (c : VReg) (b : Bool)
  /-- MIN_N32 (R126): Writes the unsigned minimum of two registers. -/
  | minN32 (d : VReg) (a : VReg) (c : VReg) (b : Bool)
  /-- MAX_N32 (R126): Writes the unsigned maximum of two registers. -/
  | maxN32 (d : VReg) (a : VReg) (c : VReg) (b : Bool)
  /-- AND (R131): Bitwise AND of two lane registers. -/
  | and (d : VReg) (a : VReg) (c : VReg) (b : Bool)
  /-- OR (R131): Bitwise OR of two lane registers; also the 32-bit form of mov. -/
  | or (d : VReg) (a : VReg) (c : VReg) (b : Bool)
  /-- XOR (R131): Bitwise exclusive OR of two lane registers. -/
  | xor (d : VReg) (a : VReg) (c : VReg) (b : Bool)
  /-- ANDN (R131): AND of the first source with the complement of the second. -/
  | andn (d : VReg) (a : VReg) (c : VReg) (b : Bool)
  /-- NOT (R131): Bitwise complement of a lane register. -/
  | not (d : VReg) (a : VReg) (b : Bool)
  /-- POPC (R131): Counts the one bits of a lane register. -/
  | popc (d : VReg) (a : VReg) (b : Bool)
  /-- CLZ (R131): Counts leading zero bits, 32 for zero. -/
  | clz (d : VReg) (a : VReg) (b : Bool)
  /-- BREV (R131): Reverses the bit order of a lane register. -/
  | brev (d : VReg) (a : VReg) (b : Bool)
  /-- SHL (R131): Shifts left by the low five bits of the second source. -/
  | shl (d : VReg) (a : VReg) (c : VReg) (b : Bool)
  /-- SHR (R131): Logical right shift by the low five bits of the second source. -/
  | shr (d : VReg) (a : VReg) (c : VReg) (b : Bool)
  /-- SRA (R131): Arithmetic right shift by the low five bits of the second source. -/
  | sra (d : VReg) (a : VReg) (c : VReg) (b : Bool)
  /-- ROTL (R131): Rotates left by the low five bits of the second source. -/
  | rotl (d : VReg) (a : VReg) (c : VReg) (b : Bool)
  /-- ROTR (R131): Rotates right by the low five bits of the second source. -/
  | rotr (d : VReg) (a : VReg) (c : VReg) (b : Bool)
  /-- ADD64 (R127): Adds two 64-bit register pairs modulo 2^64. -/
  | add64 (d : VReg) (a : VReg) (c : VReg) (b : Bool)
  /-- SUB64 (R127): Subtracts two 64-bit register pairs modulo 2^64. -/
  | sub64 (d : VReg) (a : VReg) (c : VReg) (b : Bool)
  /-- MUL64 (R127): Writes the low 64 bits of the product of two pairs. -/
  | mul64 (d : VReg) (a : VReg) (c : VReg) (b : Bool)
  /-- MIN_I64 (R127): Signed 64-bit minimum of two pairs. -/
  | minI64 (d : VReg) (a : VReg) (c : VReg) (b : Bool)
  /-- MAX_I64 (R127): Signed 64-bit maximum of two pairs. -/
  | maxI64 (d : VReg) (a : VReg) (c : VReg) (b : Bool)
  /-- MIN_N64 (R127): Unsigned 64-bit minimum of two pairs. -/
  | minN64 (d : VReg) (a : VReg) (c : VReg) (b : Bool)
  /-- MAX_N64 (R127): Unsigned 64-bit maximum of two pairs. -/
  | maxN64 (d : VReg) (a : VReg) (c : VReg) (b : Bool)
  /-- NEG64 (R127): Negates a 64-bit register pair. -/
  | neg64 (d : VReg) (a : VReg) (b : Bool)
  /-- ADDC (R128): Adds two registers and p6 as carry-in, writing the sum and the carry-out to p6. -/
  | addc (d : VReg) (a : VReg) (c : VReg) (b : Bool)
  /-- SUBB (R128): Subtracts with p6 as borrow-in, writing the difference and the borrow-out to p6. -/
  | subb (d : VReg) (a : VReg) (c : VReg) (b : Bool)
  /-- MAD_I32 (R128): Adds the 32-bit product of two registers to the destination. -/
  | madI32 (d : VReg) (a : VReg) (c : VReg) (b : Bool)
  /-- MAD_I64 (R128): Adds the 64-bit product of two pairs to the destination pair. -/
  | madI64 (d : VReg) (a : VReg) (c : VReg) (b : Bool)
  /-- CMP_EQ (R130): Sets a predicate where two 32-bit registers are equal. -/
  | cmpEq (d : PReg) (a : VReg) (c : VReg) (b : Bool)
  /-- CMP_NE (R130): Sets a predicate where two 32-bit registers differ. -/
  | cmpNe (d : PReg) (a : VReg) (c : VReg) (b : Bool)
  /-- CMP_LT_I (R130): Sets a predicate where the first register is signed-less than the second. -/
  | cmpLtI (d : PReg) (a : VReg) (c : VReg) (b : Bool)
  /-- CMP_LE_I (R130): Sets a predicate on signed less-or-equal. -/
  | cmpLeI (d : PReg) (a : VReg) (c : VReg) (b : Bool)
  /-- CMP_LT_N (R130): Sets a predicate on unsigned less-than. -/
  | cmpLtN (d : PReg) (a : VReg) (c : VReg) (b : Bool)
  /-- CMP_LE_N (R130): Sets a predicate on unsigned less-or-equal. -/
  | cmpLeN (d : PReg) (a : VReg) (c : VReg) (b : Bool)
  /-- CMP_TST (R130): Sets a predicate where the AND of two registers is non-zero. -/
  | cmpTst (d : PReg) (a : VReg) (c : VReg) (b : Bool)
  /-- CMP64_EQ (R130): Sets a predicate where two 64-bit pairs are equal. -/
  | cmp64Eq (d : PReg) (a : VReg) (c : VReg) (b : Bool)
  /-- CMP64_NE (R130): Sets a predicate where two 64-bit pairs differ. -/
  | cmp64Ne (d : PReg) (a : VReg) (c : VReg) (b : Bool)
  /-- CMP64_LT_I (R130): Sets a predicate on 64-bit signed less-than. -/
  | cmp64LtI (d : PReg) (a : VReg) (c : VReg) (b : Bool)
  /-- CMP64_LE_I (R130): Sets a predicate on 64-bit signed less-or-equal. -/
  | cmp64LeI (d : PReg) (a : VReg) (c : VReg) (b : Bool)
  /-- CMP64_LT_N (R130): Sets a predicate on 64-bit unsigned less-than. -/
  | cmp64LtN (d : PReg) (a : VReg) (c : VReg) (b : Bool)
  /-- CMP64_LE_N (R130): Sets a predicate on 64-bit unsigned less-or-equal. -/
  | cmp64LeN (d : PReg) (a : VReg) (c : VReg) (b : Bool)
  /-- CMP64_TST (R130): Sets a predicate where the AND of two pairs is non-zero. -/
  | cmp64Tst (d : PReg) (a : VReg) (c : VReg) (b : Bool)
  /-- BFE_N (R133): Extracts an unsigned bit field. -/
  | bfeN (d : VReg) (a : VReg) (c : VReg) (b : Bool)
  /-- BFE_I (R133): Extracts a sign-extended bit field. -/
  | bfeI (d : VReg) (a : VReg) (c : VReg) (b : Bool)
  /-- BFI (R133): Inserts a bit field into the destination. -/
  | bfi (d : VReg) (a : VReg) (c : VReg) (b : Bool)
  /-- FSHL (R133): Funnel-shifts a 64-bit pair left and writes the high word. -/
  | fshl (d : VReg) (a : VReg) (c : VReg) (b : Bool)
  /-- FSHR (R133): Funnel-shifts a 64-bit pair right and writes the low word. -/
  | fshr (d : VReg) (a : VReg) (c : VReg) (b : Bool)
  /-- PRMT (R133): Permutes bytes of a pair into the destination by nibble selectors. -/
  | prmt (d : VReg) (a : VReg) (c : VReg) (b : Bool)
  /-- SEL (R134): Selects one of two registers per lane by a predicate. -/
  | sel (p : PReg) (d : VReg) (a : VReg) (c : VReg) (b : Bool)
  /-- ADDI (R135): Adds a sign-extended 10-bit immediate. -/
  | addi (d : VReg) (a : VReg) (imm : BitVec 10) (b : Bool)
  /-- ANDI (R135): ANDs a sign-extended 10-bit immediate. -/
  | andi (d : VReg) (a : VReg) (imm : BitVec 10) (b : Bool)
  /-- ORI (R135): ORs a sign-extended 10-bit immediate. -/
  | ori (d : VReg) (a : VReg) (imm : BitVec 10) (b : Bool)
  /-- XORI (R135): Exclusive-ORs a sign-extended 10-bit immediate. -/
  | xori (d : VReg) (a : VReg) (imm : BitVec 10) (b : Bool)
  /-- SHLI (R132): Shifts left by an immediate amount. -/
  | shli (d : VReg) (a : VReg) (n : BitVec 5) (b : Bool)
  /-- SHRI (R132): Logical right shift by an immediate amount. -/
  | shri (d : VReg) (a : VReg) (n : BitVec 5) (b : Bool)
  /-- SRAI (R132): Arithmetic right shift by an immediate amount. -/
  | srai (d : VReg) (a : VReg) (n : BitVec 5) (b : Bool)
  /-- ROTLI (R132): Rotates left by an immediate amount. -/
  | rotli (d : VReg) (a : VReg) (n : BitVec 5) (b : Bool)
  /-- LI (R136): Writes a sign-extended 17-bit immediate to a lane register. -/
  | li (d : VReg) (imm : BitVec 17) (b : Bool)
  /-- LIH (R136): Replaces bits 31:15 of a lane register with a 17-bit immediate. -/
  | lih (d : VReg) (imm : BitVec 17) (b : Bool)
  /-- LEA (R137): Adds a shifted signed index to a 64-bit address pair. -/
  | lea (d : VReg) (a : VReg) (c : VReg) (sh : BitVec 3) (b : Bool)
  /-- LEAI (R137): Adds a sign-extended immediate to a 64-bit address pair. -/
  | leai (d : VReg) (a : VReg) (imm : BitVec 10) (b : Bool)
  /-- XSET (R138): Sets an index register to a register plus immediate, truncated to 16 bits. -/
  | xset (d : XReg) (a : VReg) (imm : BitVec 10) (b : Bool)
  /-- XGET (R139): Copies a sign-extended index register into a lane register. -/
  | xget (d : VReg) (a : XReg) (b : Bool)
  /-- SADD (R140): Adds two scalar registers. -/
  | sadd (d : SReg) (a : SReg) (c : SReg) (b : Bool)
  /-- SSUB (R140): Subtracts two scalar registers. -/
  | ssub (d : SReg) (a : SReg) (c : SReg) (b : Bool)
  /-- SMUL (R140): Multiplies two scalar registers, low 32 bits. -/
  | smul (d : SReg) (a : SReg) (c : SReg) (b : Bool)
  /-- SAND (R140): ANDs two scalar registers. -/
  | sand (d : SReg) (a : SReg) (c : SReg) (b : Bool)
  /-- SOR (R140): ORs two scalar registers. -/
  | sor (d : SReg) (a : SReg) (c : SReg) (b : Bool)
  /-- SXOR (R140): Exclusive-ORs two scalar registers. -/
  | sxor (d : SReg) (a : SReg) (c : SReg) (b : Bool)
  /-- SSHL (R140): Shifts a scalar register left. -/
  | sshl (d : SReg) (a : SReg) (c : SReg) (b : Bool)
  /-- SSHR (R140): Shifts a scalar register right, zero-filled. -/
  | sshr (d : SReg) (a : SReg) (c : SReg) (b : Bool)
  /-- SADDI (R141): Adds a sign-extended immediate to a scalar register. -/
  | saddi (d : SReg) (a : SReg) (imm : BitVec 10) (b : Bool)
  /-- SLI (R141): Writes a sign-extended 17-bit immediate to a scalar register. -/
  | sli (d : SReg) (imm : BitVec 17) (b : Bool)
  /-- V2S (R143): Copies the lowest active lane's register into a scalar register. -/
  | v2s (d : SReg) (a : VReg) (b : Bool)
  /-- S2V (R142): Copies a scalar register into a lane register of each active lane. -/
  | s2v (d : VReg) (a : SReg) (b : Bool)
  /-- SMOV (R142): Copies one scalar register to another. -/
  | smov (d : SReg) (a : SReg) (b : Bool)
  /-- SCMP_EQ (R142): Sets a predicate in active lanes where two scalars are equal. -/
  | scmpEq (d : PReg) (a : SReg) (c : SReg) (b : Bool)
  /-- SCMP_LT_I (R142): Sets a predicate on signed scalar less-than. -/
  | scmpLtI (d : PReg) (a : SReg) (c : SReg) (b : Bool)
  /-- SCMP_LT_N (R142): Sets a predicate on unsigned scalar less-than. -/
  | scmpLtN (d : PReg) (a : SReg) (c : SReg) (b : Bool)
  /-- SCMP_NE (R142): Sets a predicate where two scalars differ. -/
  | scmpNe (d : PReg) (a : SReg) (c : SReg) (b : Bool)
  /-- FADD (R149): Adds two f32 values with one RNE rounding. -/
  | fadd (d : VReg) (a : VReg) (c : VReg) (b : Bool)
  /-- FSUB (R149): Subtracts two f32 values with one RNE rounding. -/
  | fsub (d : VReg) (a : VReg) (c : VReg) (b : Bool)
  /-- FMUL (R149): Multiplies two f32 values with one RNE rounding. -/
  | fmul (d : VReg) (a : VReg) (c : VReg) (b : Bool)
  /-- FMIN (R149): f32 minimumNumber of two values. -/
  | fmin (d : VReg) (a : VReg) (c : VReg) (b : Bool)
  /-- FMAX (R149): f32 maximumNumber of two values. -/
  | fmax (d : VReg) (a : VReg) (c : VReg) (b : Bool)
  /-- FABS (R150): Clears the sign of an f32 value. -/
  | fabs (d : VReg) (a : VReg) (b : Bool)
  /-- FNEG (R150): Inverts the sign of an f32 value. -/
  | fneg (d : VReg) (a : VReg) (b : Bool)
  /-- FCLASS (R151): Writes the one-hot class mask of an f32 value. -/
  | fclass (d : VReg) (a : VReg) (b : Bool)
  /-- FFMA (R152): Computes a × c + d in f32 with one rounding. -/
  | ffma (d : VReg) (a : VReg) (c : VReg) (b : Bool)
  /-- FFMS (R152): Computes a × c − d in f32 with one rounding. -/
  | ffms (d : VReg) (a : VReg) (c : VReg) (b : Bool)
  /-- FNMA (R152): Computes −(a × c) − d in f32 with one rounding. -/
  | fnma (d : VReg) (a : VReg) (c : VReg) (b : Bool)
  /-- FNMS (R152): Computes −(a × c) + d in f32 with one rounding. -/
  | fnms (d : VReg) (a : VReg) (c : VReg) (b : Bool)
  /-- FADD_F16 (R149): Adds packed f16 pairs elementwise. -/
  | faddF16 (d : VReg) (a : VReg) (c : VReg) (b : Bool)
  /-- FSUB_F16 (R149): Subtracts packed f16 pairs elementwise. -/
  | fsubF16 (d : VReg) (a : VReg) (c : VReg) (b : Bool)
  /-- FMUL_F16 (R149): Multiplies packed f16 pairs elementwise. -/
  | fmulF16 (d : VReg) (a : VReg) (c : VReg) (b : Bool)
  /-- FMIN_F16 (R149): Packed f16 minimumNumber. -/
  | fminF16 (d : VReg) (a : VReg) (c : VReg) (b : Bool)
  /-- FMAX_F16 (R149): Packed f16 maximumNumber. -/
  | fmaxF16 (d : VReg) (a : VReg) (c : VReg) (b : Bool)
  /-- FABS_F16 (R150): Packed f16 absolute value. -/
  | fabsF16 (d : VReg) (a : VReg) (b : Bool)
  /-- FNEG_F16 (R150): Packed f16 negation. -/
  | fnegF16 (d : VReg) (a : VReg) (b : Bool)
  /-- FCLASS_F16 (R151): Packed f16 class masks. -/
  | fclassF16 (d : VReg) (a : VReg) (b : Bool)
  /-- FADD_BF16 (R149): Adds packed bf16 pairs elementwise. -/
  | faddBf16 (d : VReg) (a : VReg) (c : VReg) (b : Bool)
  /-- FSUB_BF16 (R149): Subtracts packed bf16 pairs elementwise. -/
  | fsubBf16 (d : VReg) (a : VReg) (c : VReg) (b : Bool)
  /-- FMUL_BF16 (R149): Multiplies packed bf16 pairs elementwise. -/
  | fmulBf16 (d : VReg) (a : VReg) (c : VReg) (b : Bool)
  /-- FMIN_BF16 (R149): Packed bf16 minimumNumber. -/
  | fminBf16 (d : VReg) (a : VReg) (c : VReg) (b : Bool)
  /-- FMAX_BF16 (R149): Packed bf16 maximumNumber. -/
  | fmaxBf16 (d : VReg) (a : VReg) (c : VReg) (b : Bool)
  /-- FABS_BF16 (R150): Packed bf16 absolute value. -/
  | fabsBf16 (d : VReg) (a : VReg) (b : Bool)
  /-- FNEG_BF16 (R150): Packed bf16 negation. -/
  | fnegBf16 (d : VReg) (a : VReg) (b : Bool)
  /-- FCLASS_BF16 (R151): Packed bf16 class masks. -/
  | fclassBf16 (d : VReg) (a : VReg) (b : Bool)
  /-- FADD_F64 (R149): Adds two f64 pairs. -/
  | faddF64 (d : VReg) (a : VReg) (c : VReg) (b : Bool)
  /-- FSUB_F64 (R149): Subtracts two f64 pairs. -/
  | fsubF64 (d : VReg) (a : VReg) (c : VReg) (b : Bool)
  /-- FMUL_F64 (R149): Multiplies two f64 pairs. -/
  | fmulF64 (d : VReg) (a : VReg) (c : VReg) (b : Bool)
  /-- FMIN_F64 (R149): f64 minimumNumber. -/
  | fminF64 (d : VReg) (a : VReg) (c : VReg) (b : Bool)
  /-- FMAX_F64 (R149): f64 maximumNumber. -/
  | fmaxF64 (d : VReg) (a : VReg) (c : VReg) (b : Bool)
  /-- FFMA_F64 (R149): Fused f64 multiply-add with the destination pair as addend. -/
  | ffmaF64 (d : VReg) (a : VReg) (c : VReg) (b : Bool)
  /-- FABS_F64 (R150): f64 absolute value. -/
  | fabsF64 (d : VReg) (a : VReg) (b : Bool)
  /-- FNEG_F64 (R150): f64 negation. -/
  | fnegF64 (d : VReg) (a : VReg) (b : Bool)
  /-- FCMP_EQ (R153): Sets a predicate on f32 equality. -/
  | fcmpEq (d : PReg) (a : VReg) (c : VReg) (b : Bool)
  /-- FCMP_LT (R153): Sets a predicate on f32 less-than. -/
  | fcmpLt (d : PReg) (a : VReg) (c : VReg) (b : Bool)
  /-- FCMP_LE (R153): Sets a predicate on f32 less-or-equal. -/
  | fcmpLe (d : PReg) (a : VReg) (c : VReg) (b : Bool)
  /-- FCMP_UN (R153): Sets a predicate where either f32 input is NaN. -/
  | fcmpUn (d : PReg) (a : VReg) (c : VReg) (b : Bool)
  /-- FCMP_EQ_F64 (R153): Sets a predicate on f64 equality. -/
  | fcmpEqF64 (d : PReg) (a : VReg) (c : VReg) (b : Bool)
  /-- FCMP_LT_F64 (R153): Sets a predicate on f64 less-than. -/
  | fcmpLtF64 (d : PReg) (a : VReg) (c : VReg) (b : Bool)
  /-- FCMP_LE_F64 (R153): Sets a predicate on f64 less-or-equal. -/
  | fcmpLeF64 (d : PReg) (a : VReg) (c : VReg) (b : Bool)
  /-- FCMP_UN_F64 (R153): Sets a predicate where either f64 input is NaN. -/
  | fcmpUnF64 (d : PReg) (a : VReg) (c : VReg) (b : Bool)
  /-- CVT (R154): Converts between formats by the selector in C with the rounding mode in F. -/
  | cvt (rnd : Rnd) (d : VReg) (a : VReg) (cv : BitVec 7) (b : Bool)
  /-- FRND (R160): Rounds an f32 value to an integral f32 with the mode in C[2:0]. -/
  | frnd (d : VReg) (a : VReg) (rnd : Rnd) (b : Bool)
  /-- FSCL (R159): Scales an f32 value by a power of two from a register. -/
  | fscl (d : VReg) (a : VReg) (c : VReg) (b : Bool)
  /-- FPK16 (R159): Packs two f32 values into an f16 pair with RNE. -/
  | fpk16 (d : VReg) (a : VReg) (c : VReg) (b : Bool)
  /-- FPKBF (R159): Packs two f32 values into a bf16 pair with RNE. -/
  | fpkbf (d : VReg) (a : VReg) (c : VReg) (b : Bool)
  /-- FUPK16 (R159): Unpacks an f16 pair into two f32 registers exactly. -/
  | fupk16 (d : VReg) (a : VReg) (b : Bool)
  /-- FUPKBF (R159): Unpacks a bf16 pair into two f32 registers exactly. -/
  | fupkbf (d : VReg) (a : VReg) (b : Bool)
  /-- DOT4_I8 (R161): Accumulates the dot product of four signed bytes into i32. -/
  | dot4I8 (d : VReg) (a : VReg) (c : VReg) (b : Bool)
  /-- DOT4_N8 (R161): Accumulates the dot product of four unsigned bytes into n32. -/
  | dot4N8 (d : VReg) (a : VReg) (c : VReg) (b : Bool)
  /-- DOT8_I4 (R161): Accumulates the dot product of eight signed nibbles into i32. -/
  | dot8I4 (d : VReg) (a : VReg) (c : VReg) (b : Bool)
  /-- DOT8_N4 (R161): Accumulates the dot product of eight unsigned nibbles into n32. -/
  | dot8N4 (d : VReg) (a : VReg) (c : VReg) (b : Bool)
  /-- FDOT4_E4M3 (R161): Accumulates four e4m3 products into f32 with one rounding. -/
  | fdot4E4m3 (d : VReg) (a : VReg) (c : VReg) (b : Bool)
  /-- FDOT4_E5M2 (R161): Accumulates four e5m2 products into f32 with one rounding. -/
  | fdot4E5m2 (d : VReg) (a : VReg) (c : VReg) (b : Bool)
  /-- FDOT8_E2M1 (R161): Accumulates eight e2m1 products into f32 with one rounding. -/
  | fdot8E2m1 (d : VReg) (a : VReg) (c : VReg) (b : Bool)
  /-- FDOT2_BF16 (R161): Accumulates two bf16 products into f32 with one rounding. -/
  | fdot2Bf16 (d : VReg) (a : VReg) (c : VReg) (b : Bool)
  /-- RCP (R163): Correctly rounded f32 reciprocal, variable-latency. -/
  | rcp (d : VReg) (a : VReg) (b : Bool)
  /-- RSQ (R163): Correctly rounded f32 reciprocal square root. -/
  | rsq (d : VReg) (a : VReg) (b : Bool)
  /-- SQRT (R163): Correctly rounded f32 square root. -/
  | sqrt (d : VReg) (a : VReg) (b : Bool)
  /-- EXP2 (R163): Correctly rounded f32 base-2 exponential. -/
  | exp2 (d : VReg) (a : VReg) (b : Bool)
  /-- LOG2 (R163): Correctly rounded f32 base-2 logarithm. -/
  | log2 (d : VReg) (a : VReg) (b : Bool)
  /-- SIN (R163): Correctly rounded f32 sine in radians. -/
  | sin (d : VReg) (a : VReg) (b : Bool)
  /-- COS (R163): Correctly rounded f32 cosine in radians. -/
  | cos (d : VReg) (a : VReg) (b : Bool)
  /-- TANH (R163): Correctly rounded f32 hyperbolic tangent. -/
  | tanh (d : VReg) (a : VReg) (b : Bool)
  /-- RNG_Q0 (R166): Writes ChaCha8 output words 0 to 3 to a quad. -/
  | rngQ0 (d : VReg) (a : VReg) (c : VReg) (b : Bool)
  /-- RNG_Q1 (R166): Writes ChaCha8 output words 4 to 7 to a quad. -/
  | rngQ1 (d : VReg) (a : VReg) (c : VReg) (b : Bool)
  /-- RNG_Q2 (R166): Writes ChaCha8 output words 8 to 11 to a quad. -/
  | rngQ2 (d : VReg) (a : VReg) (c : VReg) (b : Bool)
  /-- RNG_Q3 (R166): Writes ChaCha8 output words 12 to 15 to a quad. -/
  | rngQ3 (d : VReg) (a : VReg) (c : VReg) (b : Bool)
  /-- RNGF (R166): Writes four uniform f32 values in [0, 1) from ChaCha8 words 0 to 3. -/
  | rngf (d : VReg) (a : VReg) (c : VReg) (b : Bool)
  /-- SHFL_IDX (R170): Reads a register from an indexed lane of the segment. -/
  | shflIdx (d : VReg) (a : VReg) (c : VReg) (b : Bool)
  /-- SHFL_UP (R170): Reads a register from the lane n below, rotating in the segment. -/
  | shflUp (d : VReg) (a : VReg) (c : VReg) (b : Bool)
  /-- SHFL_DOWN (R170): Reads a register from the lane n above, rotating in the segment. -/
  | shflDown (d : VReg) (a : VReg) (c : VReg) (b : Bool)
  /-- SHFL_XOR (R170): Reads a register from the lane whose offset is XOR-ed with n. -/
  | shflXor (d : VReg) (a : VReg) (c : VReg) (b : Bool)
  /-- VOTE_ANY (R172): Sets a predicate where some active lane's predicate is true. -/
  | voteAny (d : PReg) (a : PReg) (b : Bool)
  /-- VOTE_ALL (R172): Sets a predicate where every active lane's predicate is true. -/
  | voteAll (d : PReg) (a : PReg) (b : Bool)
  /-- VOTE_EQ (R172): Sets a predicate where the predicate is uniform over active lanes. -/
  | voteEq (d : PReg) (a : PReg) (b : Bool)
  /-- VOTE_BALLOT (R172): Writes to a scalar pair the mask of active lanes whose predicate is true. -/
  | voteBallot (d : SReg) (a : PReg) (b : Bool)
  /-- VOTE_MATCH (R172): Writes each lane's lowest matching lane and group size. -/
  | voteMatch (d : VReg) (a : VReg) (b : Bool)
  /-- VOTE_ACTIVE (R172): Writes the active-lane mask to a scalar pair. -/
  | voteActive (d : SReg) (b : Bool)
  /-- VOTE_ELECT (R172): Sets a predicate true in the lowest active lane only. -/
  | voteElect (d : PReg) (b : Bool)
  /-- BR (R174): Moves lanes whose condition holds to the target with priority PR (jmp when PG is pt). -/
  | br (off : BitVec 16) (pn : Bool) (pg : PReg) (pr : BitVec 3) (u : Bool) (b : Bool)
  /-- CALL (R175): Branches as BR after pushing the return address in each taking lane. -/
  | call (off : BitVec 16) (pn : Bool) (pg : PReg) (pr : BitVec 3) (u : Bool) (b : Bool)
  /-- JMPI (R177): Moves each lane to the 64-bit target in its register pair. -/
  | jmpi (a : VReg) (b : Bool)
  /-- CALLI (R177): Pushes the return address and jumps to each lane's 64-bit target. -/
  | calli (a : VReg) (b : Bool)
  /-- RET (R177): Pops a return address in each lane and moves the lane there. -/
  | ret (b : Bool)
  /-- PRIO (R178): Sets the priority of the active frontier entry. -/
  | prio (n : BitVec 3) (b : Bool)
  /-- EXIT (R179): Removes active lanes from the frontier once non-speculative, decrementing join counters of spawned lanes. -/
  | exit (b : Bool)
  /-- NOP (R176): Does nothing. -/
  | nop (b : Bool)
  /-- SPAWN (R181): Offers a spawn record per active lane to the Cooper, consuming an ordinal and setting a predicate. -/
  | spawn (e : BitVec 3) (d : PReg) (a : VReg) (c : VReg) (b : Bool)
  /-- JOINW (R185): Parks the warp until every active lane's join word reads zero. -/
  | joinw (a : VReg) (b : Bool)
  /-- JOINT (R186): Sets a predicate where the join word reads zero, without parking. -/
  | joint (d : PReg) (a : VReg) (b : Bool)
  /-- WAITW (R187): Parks the warp until each lane's word is at least its threshold. -/
  | waitw (a : VReg) (c : VReg) (b : Bool)
  /-- LAUNCH (R188): The team leader queues a child grid from a launch record. -/
  | launch (d : PReg) (a : VReg) (b : Bool)
  /-- LDG_B8_N (R194): Loads a zero-extended byte from global memory. -/
  | ldgB8N (d : VReg) (a : VReg) (off : BitVec 7) (b : Bool)
  /-- LDG_B8_I (R194): Loads a sign-extended byte from global memory. -/
  | ldgB8I (d : VReg) (a : VReg) (off : BitVec 7) (b : Bool)
  /-- LDG_B16_N (R194): Loads a zero-extended halfword from global memory. -/
  | ldgB16N (d : VReg) (a : VReg) (off : BitVec 7) (b : Bool)
  /-- LDG_B16_I (R194): Loads a sign-extended halfword from global memory. -/
  | ldgB16I (d : VReg) (a : VReg) (off : BitVec 7) (b : Bool)
  /-- LDG_B32 (R194): Loads a 32-bit word from global memory. -/
  | ldgB32 (d : VReg) (a : VReg) (off : BitVec 7) (b : Bool)
  /-- LDG_B64 (R194): Loads 64 bits from global memory into a pair. -/
  | ldgB64 (d : VReg) (a : VReg) (off : BitVec 7) (b : Bool)
  /-- LDG_B128 (R194): Loads 128 bits from global memory into a quad. -/
  | ldgB128 (d : VReg) (a : VReg) (off : BitVec 7) (b : Bool)
  /-- STG_B8 (R194): Plain store of a byte to global memory. -/
  | stgB8 (d : VReg) (a : VReg) (off : BitVec 7) (b : Bool)
  /-- STG_B16 (R194): Plain store of a halfword to global memory. -/
  | stgB16 (d : VReg) (a : VReg) (off : BitVec 7) (b : Bool)
  /-- STG_B32 (R194): Plain store of a word to global memory. -/
  | stgB32 (d : VReg) (a : VReg) (off : BitVec 7) (b : Bool)
  /-- STG_B64 (R194): Plain store of a pair to global memory. -/
  | stgB64 (d : VReg) (a : VReg) (off : BitVec 7) (b : Bool)
  /-- STG_B128 (R194): Plain store of a quad to global memory. -/
  | stgB128 (d : VReg) (a : VReg) (off : BitVec 7) (b : Bool)
  /-- STGP_B8 (R195): Posted store of a byte to global memory. -/
  | stgpB8 (d : VReg) (a : VReg) (off : BitVec 7) (b : Bool)
  /-- STGP_B16 (R195): Posted store of a halfword. -/
  | stgpB16 (d : VReg) (a : VReg) (off : BitVec 7) (b : Bool)
  /-- STGP_B32 (R195): Posted store of a word. -/
  | stgpB32 (d : VReg) (a : VReg) (off : BitVec 7) (b : Bool)
  /-- STGP_B64 (R195): Posted store of a pair. -/
  | stgpB64 (d : VReg) (a : VReg) (off : BitVec 7) (b : Bool)
  /-- STGP_B128 (R195): Posted store of a quad. -/
  | stgpB128 (d : VReg) (a : VReg) (off : BitVec 7) (b : Bool)
  /-- LDA_B8_N (R198): Loads a zero-extended byte from the team's array memory. -/
  | ldaB8N (d : VReg) (a : VReg) (off : BitVec 7) (b : Bool)
  /-- LDA_B8_I (R198): Loads a sign-extended byte from array memory. -/
  | ldaB8I (d : VReg) (a : VReg) (off : BitVec 7) (b : Bool)
  /-- LDA_B16_N (R198): Loads a zero-extended halfword from array memory. -/
  | ldaB16N (d : VReg) (a : VReg) (off : BitVec 7) (b : Bool)
  /-- LDA_B16_I (R198): Loads a sign-extended halfword from array memory. -/
  | ldaB16I (d : VReg) (a : VReg) (off : BitVec 7) (b : Bool)
  /-- LDA_B32 (R198): Loads a word from array memory. -/
  | ldaB32 (d : VReg) (a : VReg) (off : BitVec 7) (b : Bool)
  /-- LDA_B64 (R198): Loads a pair from array memory. -/
  | ldaB64 (d : VReg) (a : VReg) (off : BitVec 7) (b : Bool)
  /-- LDA_B128 (R198): Loads a quad from array memory. -/
  | ldaB128 (d : VReg) (a : VReg) (off : BitVec 7) (b : Bool)
  /-- STA_B8 (R199): Stores a byte to array memory, refused in compute residence. -/
  | staB8 (d : VReg) (a : VReg) (off : BitVec 7) (b : Bool)
  /-- STA_B16 (R199): Stores a halfword to array memory. -/
  | staB16 (d : VReg) (a : VReg) (off : BitVec 7) (b : Bool)
  /-- STA_B32 (R199): Stores a word to array memory. -/
  | staB32 (d : VReg) (a : VReg) (off : BitVec 7) (b : Bool)
  /-- STA_B64 (R199): Stores a pair to array memory. -/
  | staB64 (d : VReg) (a : VReg) (off : BitVec 7) (b : Bool)
  /-- STA_B128 (R199): Stores a quad to array memory. -/
  | staB128 (d : VReg) (a : VReg) (off : BitVec 7) (b : Bool)
  /-- LDP_B32 (R200): Loads a word from the lane's private window. -/
  | ldpB32 (d : VReg) (a : VReg) (off : BitVec 7) (b : Bool)
  /-- LDP_B64 (R200): Loads a pair from the private window. -/
  | ldpB64 (d : VReg) (a : VReg) (off : BitVec 7) (b : Bool)
  /-- LDP_B128 (R200): Loads a quad from the private window. -/
  | ldpB128 (d : VReg) (a : VReg) (off : BitVec 7) (b : Bool)
  /-- STP_B32 (R200): Stores a word to the private window. -/
  | stpB32 (d : VReg) (a : VReg) (off : BitVec 7) (b : Bool)
  /-- STP_B64 (R200): Stores a pair to the private window. -/
  | stpB64 (d : VReg) (a : VReg) (off : BitVec 7) (b : Bool)
  /-- STP_B128 (R200): Stores a quad to the private window. -/
  | stpB128 (d : VReg) (a : VReg) (off : BitVec 7) (b : Bool)
  /-- PFG_L1 (R201): Hints that a global line be brought into the core's L1. -/
  | pfgL1 (a : VReg) (off : BitVec 7) (b : Bool)
  /-- PFG_L2 (R201): Hints that a global line be brought into the die's L2. -/
  | pfgL2 (a : VReg) (off : BitVec 7) (b : Bool)
  /-- LDC (R202): Loads a word from the grid's constant block. -/
  | ldc (d : VReg) (a : VReg) (off : BitVec 7) (b : Bool)
  /-- ATOM_ADD (R203): Atomically adds a 32-bit operand and returns the old value. -/
  | atomAdd (d : VReg) (a : VReg) (c : VReg) (b : Bool)
  /-- ATOM_MIN_I (R203): Atomic signed 32-bit minimum. -/
  | atomMinI (d : VReg) (a : VReg) (c : VReg) (b : Bool)
  /-- ATOM_MAX_I (R203): Atomic signed 32-bit maximum. -/
  | atomMaxI (d : VReg) (a : VReg) (c : VReg) (b : Bool)
  /-- ATOM_AND (R203): Atomic 32-bit AND. -/
  | atomAnd (d : VReg) (a : VReg) (c : VReg) (b : Bool)
  /-- ATOM_OR (R203): Atomic 32-bit OR. -/
  | atomOr (d : VReg) (a : VReg) (c : VReg) (b : Bool)
  /-- ATOM_XOR (R203): Atomic 32-bit exclusive OR. -/
  | atomXor (d : VReg) (a : VReg) (c : VReg) (b : Bool)
  /-- ATOM_XCHG (R203): Atomic 32-bit exchange. -/
  | atomXchg (d : VReg) (a : VReg) (c : VReg) (b : Bool)
  /-- ATOM_FADD_F32 (R204): Atomic f32 add with one RNE rounding. -/
  | atomFaddF32 (d : VReg) (a : VReg) (c : VReg) (b : Bool)
  /-- ATOM_ADD_I64 (R203): Atomic 64-bit add. -/
  | atomAddI64 (d : VReg) (a : VReg) (c : VReg) (b : Bool)
  /-- ATOM_MIN_I64 (R203): Atomic signed 64-bit minimum. -/
  | atomMinI64 (d : VReg) (a : VReg) (c : VReg) (b : Bool)
  /-- ATOM_MAX_I64 (R203): Atomic signed 64-bit maximum. -/
  | atomMaxI64 (d : VReg) (a : VReg) (c : VReg) (b : Bool)
  /-- ATOM_MIN_N64 (R203): Atomic unsigned 64-bit minimum. -/
  | atomMinN64 (d : VReg) (a : VReg) (c : VReg) (b : Bool)
  /-- ATOM_MAX_N64 (R203): Atomic unsigned 64-bit maximum. -/
  | atomMaxN64 (d : VReg) (a : VReg) (c : VReg) (b : Bool)
  /-- ATOM_XCHG_64 (R203): Atomic 64-bit exchange. -/
  | atomXchg64 (d : VReg) (a : VReg) (c : VReg) (b : Bool)
  /-- ATOM_ADD_I128 (R203): Atomic 128-bit add on quads. -/
  | atomAddI128 (d : VReg) (a : VReg) (c : VReg) (b : Bool)
  /-- ATOM_FADD_F64 (R204): Atomic f64 add with one RNE rounding. -/
  | atomFaddF64 (d : VReg) (a : VReg) (c : VReg) (b : Bool)
  /-- CAS_32 (R205): 32-bit compare-and-swap returning the old value. -/
  | cas32 (d : VReg) (a : VReg) (c : VReg) (b : Bool)
  /-- CAS_64 (R205): 64-bit compare-and-swap. -/
  | cas64 (d : VReg) (a : VReg) (c : VReg) (b : Bool)
  /-- CAS_128 (R205): 128-bit compare-and-swap. -/
  | cas128 (d : VReg) (a : VReg) (c : VReg) (b : Bool)
  /-- BAR (R212): Arrives at the team barrier and parks the entry until the instance completes. -/
  | bar (b : Bool)
  /-- BARM (R216): Arrives at the warp's masked barrier with a membership mask. -/
  | barm (a : VReg) (b : Bool)
  /-- BARR_ADD_I64 (R214): Team barrier with an exact i64 sum over the fixed tree. -/
  | barrAddI64 (d : VReg) (a : VReg) (b : Bool)
  /-- BARR_ADD_F32 (R214): Team barrier with an f32 tree sum. -/
  | barrAddF32 (d : VReg) (a : VReg) (b : Bool)
  /-- BARR_ADD_F64 (R214): Team barrier with an f64 tree sum. -/
  | barrAddF64 (d : VReg) (a : VReg) (b : Bool)
  /-- BARR_MIN_F32 (R214): Team barrier with an f32 tree minimum. -/
  | barrMinF32 (d : VReg) (a : VReg) (b : Bool)
  /-- BARR_MAX_F32 (R214): Team barrier with an f32 tree maximum. -/
  | barrMaxF32 (d : VReg) (a : VReg) (b : Bool)
  /-- BARR_MIN_I64 (R214): Team barrier with a signed i64 minimum. -/
  | barrMinI64 (d : VReg) (a : VReg) (b : Bool)
  /-- BARR_MAX_I64 (R214): Team barrier with a signed i64 maximum. -/
  | barrMaxI64 (d : VReg) (a : VReg) (b : Bool)
  /-- BARR_OR_B32 (R214): Team barrier with a 32-bit OR reduction. -/
  | barrOrB32 (d : VReg) (a : VReg) (b : Bool)
  /-- FENCE_C (R218): Publishes earlier posted stores to agents of the core. -/
  | fenceC (b : Bool)
  /-- FENCE_T (R218): Publishes earlier posted stores to the team. -/
  | fenceT (b : Bool)
  /-- FENCE_D (R218): Publishes earlier posted stores to agents of the die. -/
  | fenceD (b : Bool)
  /-- FENCE_K (R218): Publishes earlier posted stores to the whole package. -/
  | fenceK (b : Bool)
  /-- FENCE_X (R218): Publishes earlier posted stores to the package and CXL agents. -/
  | fenceX (b : Bool)
  /-- TXB (R220): Opens a transaction in each active lane after recording its state. -/
  | txb (b : Bool)
  /-- TXE (R225): Commits each active lane's transaction in ascending lane order. -/
  | txe (b : Bool)
  /-- TXA (R226): Aborts each active lane's transaction with an explicit code. -/
  | txa (a : VReg) (b : Bool)
  /-- TXS (R226): Sets a predicate where the lane's transaction is ACTIVE or COMMITTED. -/
  | txs (d : PReg) (b : Bool)
  /-- BCP_G2A (R235): Copies rows from global memory to array memory, completing a tag. -/
  | bcpG2a (a : SReg) (t : Tag) (b : Bool)
  /-- BCP_G2AX (R239): Copies and expands a B tile into the array and writes EB. -/
  | bcpG2ax (a : SReg) (t : Tag) (b : Bool)
  /-- BCP_G2RX (R240): Copies and expands A rows into row buffers, possibly multicast, and writes EA. -/
  | bcpG2rx (a : SReg) (t : Tag) (b : Bool)
  /-- BCP_A2G (R235): Copies rows from array memory to global memory. -/
  | bcpA2g (a : SReg) (t : Tag) (b : Bool)
  /-- BCP_Q2G (R241): Quantises an accumulator region into scaled blocks in global memory. -/
  | bcpQ2g (a : SReg) (t : Tag) (b : Bool)
  /-- BCP_G2G (R236): Copies whole lines from global to global memory. -/
  | bcpG2g (a : SReg) (t : Tag) (b : Bool)
  /-- BCP_REM (R237): Moves lines between the local and a remote device by PUT, GET or ADD.i64. -/
  | bcpRem (a : SReg) (t : Tag) (b : Bool)
  /-- BCP_SCLD (R235): Copies scale bytes into the staging area of scale memory. -/
  | bcpScld (a : SReg) (t : Tag) (b : Bool)
  /-- TWAIT (R232): Parks the warp until no tag in the mask is BUSY. -/
  | twait (a : SReg) (b : Bool)
  /-- TWANY (R232): Parks the warp until some masked tag is DONE or none is BUSY. -/
  | twany (a : SReg) (b : Bool)
  /-- TFIRST (R232): Writes the lowest masked ready tag to a scalar register. -/
  | tfirst (d : SReg) (a : SReg) (b : Bool)
  /-- TCLR (R232): Frees each DONE tag in the mask once non-speculative. -/
  | tclr (a : SReg) (b : Bool)
  /-- TSTAT (R232): Reads a tag's status word into a scalar pair. -/
  | tstat (d : SReg) (t : Tag) (b : Bool)
  /-- MMODE_C (R246): Warp barrier that moves the team's macros into compute residence. -/
  | mmodeC (b : Bool)
  /-- MMODE_S (R247): Warp barrier that returns the team's macros to storage mode after verification. -/
  | mmodeS (b : Bool)
  /-- MCAL (R248): Warp barrier that calibrates and self-tests the team's converters. -/
  | mcal (b : Bool)
  /-- MMUL_EX (R251): Queues an exact EX-mode matrix multiply into the accumulators. -/
  | mmulEx (acc : Bool) (a : SReg) (c : SReg) (b : Bool)
  /-- MMUL_AP1 (R251): Queues an approximate matrix multiply with rep = 1. -/
  | mmulAp1 (acc : Bool) (a : SReg) (c : SReg) (b : Bool)
  /-- MMUL_AP2 (R251): Queues an approximate matrix multiply with rep = 2. -/
  | mmulAp2 (acc : Bool) (a : SReg) (c : SReg) (b : Bool)
  /-- MMUL_AP4 (R251): Queues an approximate matrix multiply with rep = 4. -/
  | mmulAp4 (acc : Bool) (a : SReg) (c : SReg) (b : Bool)
  /-- MZERO (R253): Clears an accumulator region to +0.0. -/
  | mzero (a : SReg) (b : Bool)
  /-- MRD (R253): Reads accumulator elements into a lane register. -/
  | mrd (d : VReg) (a : SReg) (b : Bool)
  /-- MWR (R253): Writes a lane register into accumulator elements. -/
  | mwr (d : VReg) (a : SReg) (b : Bool)
  /-- MDRAIN (R253): Drains an accumulator region to global memory as f32. -/
  | mdrain (a : SReg) (t : Tag) (b : Bool)
  /-- MDRAIN_ADD_F32 (R254): Drains with f32 add-on-store at the home slices. -/
  | mdrainAddF32 (a : SReg) (t : Tag) (b : Bool)
  /-- MDRAIN_ADD_I32 (R254): Drains converted to i32 with integer add-on-store. -/
  | mdrainAddI32 (a : SReg) (t : Tag) (b : Bool)
  /-- MDRAIN_ADD_I64 (R254): Drains converted to i64 with integer add-on-store. -/
  | mdrainAddI64 (a : SReg) (t : Tag) (b : Bool)
  /-- TRAP (R259): Raises cause TRAP with a code in every active lane. -/
  | trap (n : BitVec 7) (b : Bool)
  /-- BRK (R259): Raises cause BRK with a code in every active lane. -/
  | brk (n : BitVec 7) (b : Bool)
  /-- ERET (R270): Ends handler mode, resuming handler lanes at RESUME with priority PRI and releasing held entries. -/
  | eret (b : Bool)
  /-- SRD (R260): Reads a special register into lane registers. -/
  | srd (d : VReg) (sr : SpReg) (b : Bool)
  /-- SWR (R261): Writes a special register that has write access. -/
  | swr (dst : SwrDst) (b : Bool)
  /-- SRDS (R260): Reads a warp-scope special register into scalar registers. -/
  | srds (d : SReg) (sr : SpReg) (b : Bool)
  /-- MOV_16 (R63): 16-bit form copying a lane register, as or vD, vC, vz. -/
  | mov16 (d : LReg) (c : LReg) (b : Bool)
  /-- ADD_16 (R63): 16-bit two-address add. -/
  | add16 (d : LReg) (c : LReg) (b : Bool)
  /-- SUB_16 (R63): 16-bit two-address subtract. -/
  | sub16 (d : LReg) (c : LReg) (b : Bool)
  /-- AND_16 (R63): 16-bit two-address AND. -/
  | and16 (d : LReg) (c : LReg) (b : Bool)
  /-- OR_16 (R63): 16-bit two-address OR. -/
  | or16 (d : LReg) (c : LReg) (b : Bool)
  /-- XOR_16 (R63): 16-bit two-address exclusive OR. -/
  | xor16 (d : LReg) (c : LReg) (b : Bool)
  /-- SHL_16 (R63): 16-bit two-address left shift. -/
  | shl16 (d : LReg) (c : LReg) (b : Bool)
  /-- SHR_16 (R63): 16-bit two-address logical right shift. -/
  | shr16 (d : LReg) (c : LReg) (b : Bool)
  /-- ADDI_16 (R63): 16-bit add of a 5-bit signed immediate. -/
  | addi16 (d : LReg) (imm : BitVec 5) (b : Bool)
  /-- MUL_16 (R63): 16-bit two-address multiply. -/
  | mul16 (d : LReg) (c : LReg) (b : Bool)
  /-- FADD_16 (R63): 16-bit two-address f32 add. -/
  | fadd16 (d : LReg) (c : LReg) (b : Bool)
  /-- FSUB_16 (R63): 16-bit two-address f32 subtract. -/
  | fsub16 (d : LReg) (c : LReg) (b : Bool)
  /-- FMUL_16 (R63): 16-bit two-address f32 multiply. -/
  | fmul16 (d : LReg) (c : LReg) (b : Bool)
  /-- FMAX_16 (R63): 16-bit two-address f32 maximum. -/
  | fmax16 (d : LReg) (c : LReg) (b : Bool)
  /-- FMIN_16 (R63): 16-bit two-address f32 minimum. -/
  | fmin16 (d : LReg) (c : LReg) (b : Bool)
  /-- SLOT_PICK (R300): An idle slot picks the ready warp with the oldest last issue and issues its run. -/
  | slotPick (die : Nat) (core : Nat) (slot : Nat)
  /-- RUN_LIMIT (R45): The 24th instruction of a run ends the run as if B were set. -/
  | runLimit (w : Nat)
  /-- RESULT_RETURN (R46): A variable-latency result returns to its register, possibly making the warp ready. -/
  | resultReturn (w : Nat) (r : Nat)
  /-- TRAP_DELIVERY (R268): A raised or held trap is delivered: record written, privileged registers set, other entries held, handler entered. -/
  | trapDelivery (w : Nat)
  /-- JOINW_WAKE (R185): On notification of a watched join word the core rereads it and wakes the warp when all words are zero. -/
  | joinwWake (w : Nat)
  /-- WAITW_WAKE (R187): On notification the core rereads waited words and wakes the warp when every threshold is met. -/
  | waitwWake (w : Nat)
  /-- WARP_COMMIT (R333): When older accesses have performed, the warp commits or moves its shadow point and releases held stores, spawns and copies. -/
  | warpCommit (w : Nat)
  /-- ROLLBACK (R340): Removal of a watched line rolls the warp back to its shadow point, restoring the log and discarding buffered work. -/
  | rollback (w : Nat)
  /-- CAUTIOUS_MODE_END (R344): After 64 instructions in cautious mode the warp leaves it and its rollback count resets. -/
  | cautiousModeEnd (w : Nat)
  /-- POSTED_STORE_PUBLISH (R283): A posted store becomes visible to agents and reaches its package point. -/
  | postedStorePublish (p : Nat) (sc : PubTarget)
  /-- FORCED_PUBLISH (R287): An outside read of a narrow-scope line stalls at the home until the fencing core reports its posted stores published. -/
  | forcedPublish (line : Nat) (a : Agent)
  /-- SERIAL_PERMIT_GRANT (R227): The package's serial transaction permit is granted to the next requesting lane in request order. -/
  | serialPermitGrant
  /-- COPY_COMPLETE (R255): A copy or drain finishes or stops, setting its tag DONE with status and BYTES. -/
  | copyComplete (c : Nat)
  /-- MMUL_START (R321): The next queued MMUL begins its first step once the previous one and R244 allow. -/
  | mmulStart (die : Nat) (core : Nat)
  /-- ARRAY_STEP (R317): One plane of one A row is converted across the stepping macros and combined. -/
  | arrayStep (die : Nat) (core : Nat) (fails : List WitnessFail)
  /-- MMUL_COMPLETE (R252): An MMUL's last elements are written and its tag completes OK, CIMERR, POISON or CANCEL. -/
  | mmulComplete (die : Nat) (core : Nat)
  /-- MMODE_C_MODE_POINT (R246): When the awaited copies finish, the macros enter compute residence and scrubbing starts. -/
  | mmodeCModePoint (gk : Nat) (team : Nat)
  /-- MMODE_C_UNPARK (R326): After scrub and staggered converter start the arrived entries unpark. -/
  | mmodeCUnpark (gk : Nat) (team : Nat)
  /-- MMODE_S_VERIFY (R247): After queued MMULs finish, the macros are verified, returned to storage and errors mark SUSPECT. -/
  | mmodeSVerify (gk : Nat) (team : Nat)
  /-- MCAL_COMPLETE (R248): After 20,000 cycles calibration ends, self-test failures fail the team, and arrivals unpark. -/
  | mcalComplete (gk : Nat) (team : Nat) (bad : List Nat)
  /-- QPUSH (R352): A runtime write pushes a launch record into a launch queue, or drops it and sets OVF. -/
  | qpush (q : Nat) (pa : DWord)
  /-- QUANTUM_WRITE (R353): A write of a queue's quantum stores it clamped to 1 to 2^40. -/
  | quantumWrite (q : Nat) (v : DWord)
  /-- QSTAT_CLEAR_OVF (R353): Writing 1 to QSTAT.OVF clears the overflow flag. -/
  | qstatClearOvf (q : Nat) (v : DWord)
  /-- REGISTER_WRITE (R450): A write to a control-window register without behaviour of its own stores the value or is ignored. -/
  | registerWrite (off : Nat) (v : DWord)
  /-- GRID_QUERY (R363): GCMD QUERY names grids by identifier so GSTAT reports their state, changing nothing. -/
  | gridQuery (id : Word)
  /-- GRID_DRAIN (R364): GCMD DRAIN stops hand-out of the named grids' teams and lets running teams finish. -/
  | gridDrain (id : Word)
  /-- GRID_RESUME (R364): GCMD RESUME makes a drained grid eligible again. -/
  | gridResume (id : Word)
  /-- GRID_KILL (R275): GCMD KILL kills the named grids and descendants, cancelling their work and reporting them. -/
  | gridKill (id : Word)
  /-- WARP_KILL_STOP (R275): A running warp of a killed grid stops at the end of its current run. -/
  | warpKillStop (w : Nat)
  /-- ADMISSION (R354): The record at a queue's head is checked and admitted or rejected and reported. -/
  | admission (q : Nat)
  /-- WAIT_WORD_NOTIFY (R355): The launch unit rereads an admitted grid's wait words on change and marks it ready when all are met. -/
  | waitWordNotify (gk : Nat)
  /-- TEAM_SELECT (R358): The launch unit selects a queue by class and deficit and hands out its next team. -/
  | teamSelect
  /-- TEAM_PLACEMENT (R360): A die dispatcher places the offered team on the lowest fitting core or pair. -/
  | teamPlacement (die : Nat)
  /-- TWIN_BACKOFF_EXPIRY (R361): After a twin reservation conflict the back-off expires and the dispatcher retries. -/
  | twinBackoffExpiry (die : Nat)
  /-- TEAM_RETIRE (R35): A team whose threads have all exited retires, freeing its resources and charging its queue. -/
  | teamRetire (gk : Nat) (team : Nat)
  /-- DONE_WORD_ADD (R293): When a grid and its children have finished, the dispatcher adds 1 to its done word or records failure. -/
  | doneWordAdd (gk : Nat)
  /-- PARTIAL_WARP_TIMEOUT (R369): 512 cycles after lane 0 was assigned, an open partial warp becomes due. -/
  | partialWarpTimeout (die : Nat) (core : Nat) (p : Nat)
  /-- JOINW_DUE_DELAY (R369): 64 cycles after lane 0 of a parked-joiner team is assigned, the partial warp becomes due. -/
  | joinwDueDelay (die : Nat) (core : Nat) (p : Nat)
  /-- COOPER_RELEASE (R369): A due gathered warp obtains context, registers and banks and is released. -/
  | cooperRelease (die : Nat) (core : Nat)
  /-- RING_SPILL (R371): Above 7/8 occupancy the Cooper writes its oldest unassigned records to spill rings. -/
  | ringSpill (die : Nat) (core : Nat)
  /-- RING_REFILL (R371): Below 1/4 occupancy the Cooper pulls up to 128 records from a qualifying ring. -/
  | ringRefill (die : Nat) (core : Nat) (gk : Nat)
  /-- WARP_YIELD (R374): After a warp has been due 256 cycles, the longest JOINW-parked warp is saved and frees its resources. -/
  | warpYield (die : Nat) (core : Nat)
  /-- WARP_RESTORE (R376): A yielded warp whose join condition is met is restored to its core. -/
  | warpRestore (w : Nat)
  /-- PAGE_WALK (R392): A TLB miss starts a walk by a free walker, installing a translation or raising a fault. -/
  | pageWalk (die : Nat) (core : Nat) (asid : Nat) (page : Nat) (acc : Access)
  /-- FAULT_RECORD_ENTER (R395): A translation fault is entered in the fault queue once per page when space allows. -/
  | faultRecordEnter
  /-- FRES_RESOLVED (R395): FRES status 0 unparks every agent waiting on the page to walk again. -/
  | fresResolved (page : Nat) (asid : Nat)
  /-- FRES_UNRESOLVABLE (R395): FRES status 1 makes waiting agents meet PFAIL or end copies FAULT. -/
  | fresUnresolvable (page : Nat) (asid : Nat)
  /-- FRES_BACKING_FAILED (R395): FRES status 2 reports backing-store failure to waiting agents. -/
  | fresBackingFailed (page : Nat) (asid : Nat)
  /-- SHOOTDOWN_PAGE (R396): SDCMD operation 0 removes translations of one page. -/
  | shootdownPage (page : Nat) (asid : Nat)
  /-- SHOOTDOWN_ASID (R396): SDCMD operation 1 removes every translation of an ASID. -/
  | shootdownAsid (asid : Nat)
  /-- SHOOTDOWN_ALL (R396): SDCMD operation 2 removes translations of every ASID. -/
  | shootdownAll
  /-- SHOOTDOWN_COMPLETE (R396): When old-translation accesses complete, SDSTAT busy clears at one point in T. -/
  | shootdownComplete
  /-- MIGRATION_COMMAND_TAKE (R400): An H-die engine takes the next migration command and begins moving the page. -/
  | migrationCommandTake
  /-- MIGRATION_COMPLETE (R400): After the frame copy the entry is rewritten, waiters unparked and the status written. -/
  | migrationComplete (m : Nat) (ok : Bool)
  /-- RDS (R411): A read-copy request is served at the home with data, forwarding or a new E copy. -/
  | rds (h : Holder) (line : Nat)
  /-- WRP (R411): Plain store bytes are applied at the home after invalidating other copies. -/
  | wrp (src : WrpSrc)
  /-- ATM (R411): An atomic or CAS of one instruction's lanes is applied at the home. -/
  | atm (h : Holder) (k : AtomKind) (pa : Nat) (x : QWord) (y : QWord)
  /-- OWN (R390): An engine requests ownership of a destination line, granted in arrival order. -/
  | own (c : Nat) (line : Nat)
  /-- WRF (R411): An engine full-line write is applied at the home and releases ownership. -/
  | wrf (c : Nat) (line : Nat)
  /-- ADDL (R254): An add-on-store line is applied indivisibly at the home slice. -/
  | addl (c : Nat) (line : Nat)
  /-- TXLK (R415): A committing transaction locks and validates one line at its home. -/
  | txlk (w : Nat) (lane : Nat) (line : Nat)
  /-- TXWR (R411): A committing transaction's stores to a line are applied and the line unlocked. -/
  | txwr (w : Nat) (lane : Nat) (line : Nat)
  /-- WBD (R411): An owner's dirty write-back is written at the home or discarded if overtaken. -/
  | wbd (h : Holder) (line : Nat) (half : Option (Nat × List Byte))
  /-- EVE (R411): Notice of eviction of an E copy clears the presence bit. -/
  | eve (h : Holder) (line : Nat)
  /-- OWNH (R411): The bridge requests line ownership for a host, invalidating all other copies. -/
  | ownh (line : Nat) (half : Nat)
  /-- SNPINV (R413): A holder invalidates its copy and acknowledges, rolling back watchers and aborting transactions. -/
  | snpinv (h : Holder) (line : Nat)
  /-- SNPINVD (R411): An owner invalidates its copy and returns its data to the home. -/
  | snpinvd (h : Holder) (line : Nat)
  /-- SNPFWD (R411): An owner sends data to a named requester and keeps or downgrades ownership. -/
  | snpfwd (h : Holder) (line : Nat) (g : Holder)
  /-- SNPPASS (R412): A holder takes ownership of the copy it holds. -/
  | snppass (h : Holder) (line : Nat)
  /-- RECALL (R414): An owning engine writes the named line next, releasing it. -/
  | recall (line : Nat)
  /-- CMP (R409): A completion ends a request at its requester, letting the next store be sent. -/
  | cmp (w : Nat)
  /-- ACK (R409): A snoop acknowledgement reaches the home. -/
  | ack (h : Holder) (line : Nat)
  /-- CMPACK (R410): The requester's receipt of granted data ends the home's operation. -/
  | cmpack (h : Holder) (line : Nat)
  /-- RETRY (R418): A home refuses a request with all trackers busy, queuing it on the retry list. -/
  | retry (h : Holder) (line : Nat)
  /-- RTYGNT (R418): A retry grant lets the requester resend its request, which is accepted. -/
  | rtygnt (die : Nat) (slice : Nat)
  /-- DATA (R409): Line or half data with poison bits arrives at a requester or home. -/
  | data (h : Holder) (line : Nat) (poison : BitVec 16)
  /-- LINK_REPLAY (R403): A flit failing its CRC is discarded and the sender replays from its buffer. -/
  | linkReplay (x : Nat) (y : Nat)
  /-- LINK_RETRAIN (R403): After 16 failed replays the link retrains once. -/
  | linkRetrain (x : Nat) (y : Nat) (ok : Bool)
  /-- HOST_READ_HALF (R421): A host read of a half makes the bridge send RdS and record HS. -/
  | hostReadHalf (line : Nat) (half : Nat)
  /-- HOST_EXCLUSIVE_HALF (R421): A host exclusive request makes the bridge send OwnH and hold the half HM. -/
  | hostExclusiveHalf (line : Nat) (half : Nat)
  /-- HOST_WRITEBACK_HALF (R421): A host write-back of an HM half reaches the home as WbD. -/
  | hostWritebackHalf (line : Nat) (half : Nat) (data : List Byte)
  /-- HOST_BI_RESPONSE (R422): A host answers a back-invalidate snoop, its data merged before the home operation. -/
  | hostBiResponse (line : Nat) (half : Nat) (data : List Byte) (keep : Bool)
  /-- HOST_BI_TIMEOUT (R422): A host silent for 10 ms has its HM halves poisoned and made HI, and the event reported. -/
  | hostBiTimeout (line : Nat)
  /-- PUT_DATA (R437): A received PUT frame is checked and its lines applied once at the remote home. -/
  | putData (fr : Frame)
  /-- GET_REQUEST (R437): A received GET request frame is served with GET data frames. -/
  | getRequest (fr : Frame)
  /-- GET_DATA (R437): A received GET data frame writes its lines locally. -/
  | getData (fr : Frame)
  /-- ADD_DATA (R437): A received ADD frame adds its 64-bit words once at the remote home. -/
  | addData (fr : Frame)
  /-- REM_ACKNOWLEDGEMENT (R438): An acknowledgement frame confirms received sequence numbers to the sender. -/
  | remAcknowledgement (fr : Frame)
  /-- REM_RETRANSMIT (R438): On timeout the sender retransmits missing frames with doubling timeout. -/
  | remRetransmit (x : Nat)
  /-- REM_TRANSFER_FAIL (R438): After 16 transmissions or 10 ms a transfer fails with status REMOTE. -/
  | remTransferFail (x : Nat) (cause : RemCause)
  /-- ERROR_RECORD_FLUSH (R444): Held error records are written to the queue as space frees, releasing waiting agents. -/
  | errorRecordFlush (die : Nat)
  /-- CORRECTABLE_RECORD (R447): At most once per millisecond per unit a correctable-error record carries the count. -/
  | correctableRecord (die : Nat) (core : Nat) (store : Nat)
  /-- TEMPERATURE_BAND_EXIT (R324): A core leaving its calibration temperature band is reported in the error queue. -/
  | temperatureBandExit (die : Nat) (core : Nat) (temp : Int)
  /-- POWER_ON_BOOT (R451): Rails coming up boot the package: firmware verified, links and memory started, cores calibrated, OS started. -/
  | powerOnBoot
  /-- FIRMWARE_UPDATE (R455): An image arriving over the management port is written to the slot that did not boot. -/
  | firmwareUpdate (image : List Byte)
  /-- MANAGEMENT_RESET (R455): A reset commanded over the management port or by the board resets the package. -/
  | managementReset
  /-- GET_VERSION (R454): SPDM GET_VERSION request answered by the management controller. -/
  | getVersion (req : List Byte)
  /-- GET_CAPABILITIES (R454): SPDM GET_CAPABILITIES request answered. -/
  | getCapabilities (req : List Byte)
  /-- NEGOTIATE_ALGORITHMS (R454): SPDM NEGOTIATE_ALGORITHMS request answered. -/
  | negotiateAlgorithms (req : List Byte)
  /-- GET_DIGESTS (R454): SPDM GET_DIGESTS request answered. -/
  | getDigests (req : List Byte)
  /-- GET_CERTIFICATE (R454): SPDM GET_CERTIFICATE request answered with the certificate chain. -/
  | getCertificate (req : List Byte)
  /-- CHALLENGE (R454): SPDM CHALLENGE request answered with a signature by the identity key. -/
  | challenge (req : List Byte)
  /-- GET_MEASUREMENTS (R454): SPDM GET_MEASUREMENTS request answered with measurements 1 to 4. -/
  | getMeasurements (req : List Byte)
  /-- KEY_EXCHANGE (R454): SPDM KEY_EXCHANGE request starts a secure session. -/
  | keyExchange (req : List Byte)
  /-- FINISH (R454): SPDM FINISH request completes session establishment. -/
  | finish (req : List Byte)
  /-- PSTATE_SET (R457): A PCMD write sets the P-state of named dies, or is dropped while BUSY. -/
  | pstateSet (v : DWord)
  /-- PSTATE_CHANGE_DONE (R457): When every named die has changed clock, BUSY clears. -/
  | pstateChangeDone
  /-- PSTAT_CLEAR (R456): Writing 1 to PSTAT bits 16 or 17 clears DROP or THROT. -/
  | pstatClear (v : DWord)
  /-- PLIMIT_WRITE (R456): A PLIMIT write stores the module power limit clamped to its range. -/
  | plimitWrite (v : DWord)
  /-- POWER_LIMIT_THROTTLE (R457): Firmware lowers a P-state on its own to stay within PLIMIT and reports it. -/
  | powerLimitThrottle (die : Nat) (p : Nat)
  /-- CURRENT_CLAMP (R458): A die over its current clamp skips issue cycles within 1 µs and sets THROT. -/
  | currentClamp (die : Nat)
  /-- THERMAL_TRIP (R458): At 105 °C junction the package requests removal of its main rails. -/
  | thermalTrip
  /-- ILLEGAL_INSTRUCTION (R68): An issued word that fails decode (OP 0x00, op4 0, reserved function, non-zero reserved field) raises ILLEGAL in every active lane. -/
  | illegalInstruction (insn : Word)
  /-- INSTRUCTION_FETCH_FAULT (R52): A fetch that meets a resolvable fault parks the entry, a page without execute permission raises PROT, an unresolvable fault raises PFAIL, and a poisoned fetch raises MCHECK. -/
  | instructionFetchFault
  /-- SOFT_ERROR (R441): A stored bit of a cache, memory, register file, array or other protected store is corrupted, to be corrected or poisoned when it is next read or checked. -/
  | softError (loc : SoftLoc) (unc : Bool)
  /-- MAIN_RAILS_OFF (R5): The module's main rails go off and every function of the package loses power and state. -/
  | mainRailsOff
deriving DecidableEq, Repr

end Sys2Proof
end

