-- ==== Sys2Proof/WellFormed.lean ====
section
/-! DEFINITION. The checks on an instruction that its words alone decide: register pairs, quads and groups, selectors
and the operands of SRD, SRDS and SWR (R58, R61, R65, R68, R86, R87). What needs the kernel's allocation (R15) is
checked at issue. -/
namespace Sys2Proof

/-- A direct register in a pair position is even (R65); vz and indexed operands are not checked here. -/
def VReg.pairOk : VReg → Bool
  | .v n => n.val % 2 == 0
  | .z => true
  | .ix _ => true

/-- A direct register in a quad position is a multiple of 4 (R65). -/
def VReg.quadOk : VReg → Bool
  | .v n => n.val % 4 == 0
  | .z => true
  | .ix _ => true

/-- A scalar pair has an even base (R18). -/
def sregPairOk (r : SReg) : Bool := r.val % 2 == 0

/-- A scalar group has a base that is a multiple of 4 (R61). -/
def sregGroupOk (r : SReg) : Bool := r.val % 4 == 0

/-- PG = 7 with PN = 1 is reserved (R59). -/
def branchOk (pn : Bool) (pg : PReg) : Bool := !(pn && pg == 7)

/-- Widths in registers of a conversion's D and A, by selector (R154); none for an unlisted selector. -/
def cvtWidths (sel : BitVec 7) : Option (Nat × Nat) :=
  match sel.toNat with
  | 0x00 => some (1, 2)
  | 0x01 => some (2, 1)
  | 0x02 | 0x03 | 0x04 | 0x05 => some (1, 1)
  | 0x06 => some (1, 2)
  | 0x07 => some (2, 1)
  | 0x08 | 0x09 => some (1, 1)
  | 0x0A | 0x0B => some (1, 2)
  | 0x0C | 0x0D => some (2, 1)
  | 0x0E | 0x0F => some (2, 2)
  | 0x10 | 0x11 => some (1, 1)
  | 0x12 | 0x13 => some (2, 1)
  | 0x14 | 0x15 => some (1, 2)
  | 0x16 | 0x17 => some (2, 2)
  | 0x20 | 0x21 | 0x22 | 0x23 | 0x24 => some (1, 1)
  | 0x28 | 0x29 | 0x2A | 0x2B | 0x2C => some (1, 1)
  | 0x30 | 0x31 | 0x32 | 0x33 | 0x34 => some (1, 2)
  | 0x38 | 0x39 | 0x3A | 0x3B | 0x3C => some (1, 2)
  | 0x40 | 0x41 | 0x42 | 0x43 => some (2, 1)
  | 0x44 => some (4, 1)
  | 0x48 | 0x49 | 0x4A | 0x4B => some (2, 1)
  | 0x4C => some (4, 1)
  | 0x50 | 0x51 => some (1, 1)
  | _ => none

/-- The operand lies as a value of n registers asks: any, even, or a multiple of 4. -/
def VReg.widthOk (r : VReg) (n : Nat) : Bool :=
  match n with
  | 2 => r.pairOk
  | 4 => r.quadOk
  | _ => true

/-- The selector is listed and D and A lie as it asks (R87, R154). -/
def cvtOk (sel : BitVec 7) (d a : VReg) : Bool :=
  match cvtWidths sel with
  | some (n, m) => d.widthOk n && a.widthOk m
  | none => false

/-- The special registers that are 64 bits wide (R21). -/
def SpReg.wide : SpReg → Bool
  | .gtid | .sid | .lastsid | .clock | .time | .tagrdy | .tagerr | .tepc | .tmask | .trec | .tscratch => true
  | .lane | .wwid | .warp | .team | .tid | .core | .die | .dev | .grid | .depth | .fflags | .wmode | .txst | .rsp
  | .tflags | .tcause | .asid => false

/-- The special registers of lane scope (R21). -/
def SpReg.laneScope : SpReg → Bool
  | .lane | .team | .tid | .gtid | .sid | .lastsid | .fflags | .txst | .rsp | .tflags => true
  | .wwid | .warp | .core | .die | .dev | .grid | .depth | .clock | .time | .tagrdy | .tagerr | .wmode | .tcause | .tepc
  | .tmask | .trec | .tscratch | .asid => false

/-- A 64-bit register is read into an even base (R22). -/
def srdOk (d : VReg) (r : SpReg) : Bool := !r.wide || d.pairOk

/-- SRDS reads warp scope only, a 64-bit register into an even base (R22). -/
def srdsOk (d : SReg) (r : SpReg) : Bool := !r.laneScope && (!r.wide || sregPairOk d)

/-- SWR names a register with write access, tscratch from an even pair (R22, R261). -/
def swrOk : SwrDst → Bool
  | .fflags _ => true
  | .tflags _ => true
  | .wmode _ => true
  | .tscratch a => sregPairOk a
  | .readOnly _ _ => false

/-- The checks of one instruction that need nothing but its own words (R68). Events have none. -/
def Instr.wellFormed : Instr → Bool
  | .add _ _ _ _ => true
  | .sub _ _ _ _ => true
  | .mul _ _ _ _ => true
  | .mulhiI32 _ _ _ _ => true
  | .mulhiN32 _ _ _ _ => true
  | .abs _ _ _ => true
  | .neg _ _ _ => true
  | .minI32 _ _ _ _ => true
  | .maxI32 _ _ _ _ => true
  | .minN32 _ _ _ _ => true
  | .maxN32 _ _ _ _ => true
  | .and _ _ _ _ => true
  | .or _ _ _ _ => true
  | .xor _ _ _ _ => true
  | .andn _ _ _ _ => true
  | .not _ _ _ => true
  | .popc _ _ _ => true
  | .clz _ _ _ => true
  | .brev _ _ _ => true
  | .shl _ _ _ _ => true
  | .shr _ _ _ _ => true
  | .sra _ _ _ _ => true
  | .rotl _ _ _ _ => true
  | .rotr _ _ _ _ => true
  | .add64 d a c _ => d.pairOk && a.pairOk && c.pairOk
  | .sub64 d a c _ => d.pairOk && a.pairOk && c.pairOk
  | .mul64 d a c _ => d.pairOk && a.pairOk && c.pairOk
  | .minI64 d a c _ => d.pairOk && a.pairOk && c.pairOk
  | .maxI64 d a c _ => d.pairOk && a.pairOk && c.pairOk
  | .minN64 d a c _ => d.pairOk && a.pairOk && c.pairOk
  | .maxN64 d a c _ => d.pairOk && a.pairOk && c.pairOk
  | .neg64 d a _ => d.pairOk && a.pairOk
  | .addc _ _ _ _ => true
  | .subb _ _ _ _ => true
  | .madI32 _ _ _ _ => true
  | .madI64 d a c _ => d.pairOk && a.pairOk && c.pairOk
  | .cmpEq _ _ _ _ => true
  | .cmpNe _ _ _ _ => true
  | .cmpLtI _ _ _ _ => true
  | .cmpLeI _ _ _ _ => true
  | .cmpLtN _ _ _ _ => true
  | .cmpLeN _ _ _ _ => true
  | .cmpTst _ _ _ _ => true
  | .cmp64Eq _ a c _ => a.pairOk && c.pairOk
  | .cmp64Ne _ a c _ => a.pairOk && c.pairOk
  | .cmp64LtI _ a c _ => a.pairOk && c.pairOk
  | .cmp64LeI _ a c _ => a.pairOk && c.pairOk
  | .cmp64LtN _ a c _ => a.pairOk && c.pairOk
  | .cmp64LeN _ a c _ => a.pairOk && c.pairOk
  | .cmp64Tst _ a c _ => a.pairOk && c.pairOk
  | .bfeN _ _ _ _ => true
  | .bfeI _ _ _ _ => true
  | .bfi _ _ _ _ => true
  | .fshl _ a _ _ => a.pairOk
  | .fshr _ a _ _ => a.pairOk
  | .prmt _ a _ _ => a.pairOk
  | .sel _ _ _ _ _ => true
  | .addi _ _ _ _ => true
  | .andi _ _ _ _ => true
  | .ori _ _ _ _ => true
  | .xori _ _ _ _ => true
  | .shli _ _ _ _ => true
  | .shri _ _ _ _ => true
  | .srai _ _ _ _ => true
  | .rotli _ _ _ _ => true
  | .li _ _ _ => true
  | .lih _ _ _ => true
  | .lea d a _ _ _ => d.pairOk && a.pairOk
  | .leai d a _ _ => d.pairOk && a.pairOk
  | .xset _ _ _ _ => true
  | .xget _ _ _ => true
  | .sadd _ _ _ _ => true
  | .ssub _ _ _ _ => true
  | .smul _ _ _ _ => true
  | .sand _ _ _ _ => true
  | .sor _ _ _ _ => true
  | .sxor _ _ _ _ => true
  | .sshl _ _ _ _ => true
  | .sshr _ _ _ _ => true
  | .saddi _ _ _ _ => true
  | .sli _ _ _ => true
  | .v2s _ _ _ => true
  | .s2v _ _ _ => true
  | .smov _ _ _ => true
  | .scmpEq _ _ _ _ => true
  | .scmpLtI _ _ _ _ => true
  | .scmpLtN _ _ _ _ => true
  | .scmpNe _ _ _ _ => true
  | .fadd _ _ _ _ => true
  | .fsub _ _ _ _ => true
  | .fmul _ _ _ _ => true
  | .fmin _ _ _ _ => true
  | .fmax _ _ _ _ => true
  | .fabs _ _ _ => true
  | .fneg _ _ _ => true
  | .fclass _ _ _ => true
  | .ffma _ _ _ _ => true
  | .ffms _ _ _ _ => true
  | .fnma _ _ _ _ => true
  | .fnms _ _ _ _ => true
  | .faddF16 _ _ _ _ => true
  | .fsubF16 _ _ _ _ => true
  | .fmulF16 _ _ _ _ => true
  | .fminF16 _ _ _ _ => true
  | .fmaxF16 _ _ _ _ => true
  | .fabsF16 _ _ _ => true
  | .fnegF16 _ _ _ => true
  | .fclassF16 _ _ _ => true
  | .faddBf16 _ _ _ _ => true
  | .fsubBf16 _ _ _ _ => true
  | .fmulBf16 _ _ _ _ => true
  | .fminBf16 _ _ _ _ => true
  | .fmaxBf16 _ _ _ _ => true
  | .fabsBf16 _ _ _ => true
  | .fnegBf16 _ _ _ => true
  | .fclassBf16 _ _ _ => true
  | .faddF64 d a c _ => d.pairOk && a.pairOk && c.pairOk
  | .fsubF64 d a c _ => d.pairOk && a.pairOk && c.pairOk
  | .fmulF64 d a c _ => d.pairOk && a.pairOk && c.pairOk
  | .fminF64 d a c _ => d.pairOk && a.pairOk && c.pairOk
  | .fmaxF64 d a c _ => d.pairOk && a.pairOk && c.pairOk
  | .ffmaF64 d a c _ => d.pairOk && a.pairOk && c.pairOk
  | .fabsF64 d a _ => d.pairOk && a.pairOk
  | .fnegF64 d a _ => d.pairOk && a.pairOk
  | .fcmpEq _ _ _ _ => true
  | .fcmpLt _ _ _ _ => true
  | .fcmpLe _ _ _ _ => true
  | .fcmpUn _ _ _ _ => true
  | .fcmpEqF64 _ a c _ => a.pairOk && c.pairOk
  | .fcmpLtF64 _ a c _ => a.pairOk && c.pairOk
  | .fcmpLeF64 _ a c _ => a.pairOk && c.pairOk
  | .fcmpUnF64 _ a c _ => a.pairOk && c.pairOk
  | .cvt _ d a cv _ => cvtOk cv d a
  | .frnd _ _ _ _ => true
  | .fscl _ _ _ _ => true
  | .fpk16 _ _ _ _ => true
  | .fpkbf _ _ _ _ => true
  | .fupk16 d _ _ => d.pairOk
  | .fupkbf d _ _ => d.pairOk
  | .dot4I8 _ _ _ _ => true
  | .dot4N8 _ _ _ _ => true
  | .dot8I4 _ _ _ _ => true
  | .dot8N4 _ _ _ _ => true
  | .fdot4E4m3 _ _ _ _ => true
  | .fdot4E5m2 _ _ _ _ => true
  | .fdot8E2m1 _ _ _ _ => true
  | .fdot2Bf16 _ _ _ _ => true
  | .rcp _ _ _ => true
  | .rsq _ _ _ => true
  | .sqrt _ _ _ => true
  | .exp2 _ _ _ => true
  | .log2 _ _ _ => true
  | .sin _ _ _ => true
  | .cos _ _ _ => true
  | .tanh _ _ _ => true
  | .rngQ0 d a c _ => d.quadOk && a.pairOk && c.pairOk
  | .rngQ1 d a c _ => d.quadOk && a.pairOk && c.pairOk
  | .rngQ2 d a c _ => d.quadOk && a.pairOk && c.pairOk
  | .rngQ3 d a c _ => d.quadOk && a.pairOk && c.pairOk
  | .rngf d a c _ => d.quadOk && a.pairOk && c.pairOk
  | .shflIdx _ _ _ _ => true
  | .shflUp _ _ _ _ => true
  | .shflDown _ _ _ _ => true
  | .shflXor _ _ _ _ => true
  | .voteAny _ _ _ => true
  | .voteAll _ _ _ => true
  | .voteEq _ _ _ => true
  | .voteBallot d _ _ => sregPairOk d
  | .voteMatch d _ _ => d.pairOk
  | .voteActive d _ => sregPairOk d
  | .voteElect _ _ => true
  | .br _ pn pg _ _ _ => branchOk pn pg
  | .call _ pn pg _ _ _ => branchOk pn pg
  | .jmpi a _ => a.pairOk
  | .calli a _ => a.pairOk
  | .ret _ => true
  | .prio _ _ => true
  | .exit _ => true
  | .nop _ => true
  | .spawn _ _ _ c _ => c.pairOk
  | .joinw a _ => a.pairOk
  | .joint _ a _ => a.pairOk
  | .waitw a _ _ => a.pairOk
  | .launch _ a _ => a.pairOk
  | .ldgB8N _ a _ _ => a.pairOk
  | .ldgB8I _ a _ _ => a.pairOk
  | .ldgB16N _ a _ _ => a.pairOk
  | .ldgB16I _ a _ _ => a.pairOk
  | .ldgB32 _ a _ _ => a.pairOk
  | .ldgB64 d a _ _ => a.pairOk && d.pairOk
  | .ldgB128 d a _ _ => a.pairOk && d.quadOk
  | .stgB8 _ a _ _ => a.pairOk
  | .stgB16 _ a _ _ => a.pairOk
  | .stgB32 _ a _ _ => a.pairOk
  | .stgB64 d a _ _ => a.pairOk && d.pairOk
  | .stgB128 d a _ _ => a.pairOk && d.quadOk
  | .stgpB8 _ a _ _ => a.pairOk
  | .stgpB16 _ a _ _ => a.pairOk
  | .stgpB32 _ a _ _ => a.pairOk
  | .stgpB64 d a _ _ => a.pairOk && d.pairOk
  | .stgpB128 d a _ _ => a.pairOk && d.quadOk
  | .ldaB8N _ _ _ _ => true
  | .ldaB8I _ _ _ _ => true
  | .ldaB16N _ _ _ _ => true
  | .ldaB16I _ _ _ _ => true
  | .ldaB32 _ _ _ _ => true
  | .ldaB64 d _ _ _ => d.pairOk
  | .ldaB128 d _ _ _ => d.quadOk
  | .staB8 _ _ _ _ => true
  | .staB16 _ _ _ _ => true
  | .staB32 _ _ _ _ => true
  | .staB64 d _ _ _ => d.pairOk
  | .staB128 d _ _ _ => d.quadOk
  | .ldpB32 _ _ _ _ => true
  | .ldpB64 d _ _ _ => d.pairOk
  | .ldpB128 d _ _ _ => d.quadOk
  | .stpB32 _ _ _ _ => true
  | .stpB64 d _ _ _ => d.pairOk
  | .stpB128 d _ _ _ => d.quadOk
  | .pfgL1 a _ _ => a.pairOk
  | .pfgL2 a _ _ => a.pairOk
  | .ldc _ _ _ _ => true
  | .atomAdd _ a _ _ => a.pairOk
  | .atomMinI _ a _ _ => a.pairOk
  | .atomMaxI _ a _ _ => a.pairOk
  | .atomAnd _ a _ _ => a.pairOk
  | .atomOr _ a _ _ => a.pairOk
  | .atomXor _ a _ _ => a.pairOk
  | .atomXchg _ a _ _ => a.pairOk
  | .atomFaddF32 _ a _ _ => a.pairOk
  | .atomAddI64 d a c _ => d.pairOk && a.pairOk && c.pairOk
  | .atomMinI64 d a c _ => d.pairOk && a.pairOk && c.pairOk
  | .atomMaxI64 d a c _ => d.pairOk && a.pairOk && c.pairOk
  | .atomMinN64 d a c _ => d.pairOk && a.pairOk && c.pairOk
  | .atomMaxN64 d a c _ => d.pairOk && a.pairOk && c.pairOk
  | .atomXchg64 d a c _ => d.pairOk && a.pairOk && c.pairOk
  | .atomAddI128 d a c _ => d.quadOk && a.pairOk && c.quadOk
  | .atomFaddF64 d a c _ => d.pairOk && a.pairOk && c.pairOk
  | .cas32 _ a _ _ => a.pairOk
  | .cas64 d a c _ => a.pairOk && d.pairOk && c.pairOk
  | .cas128 d a c _ => a.pairOk && d.quadOk && c.quadOk
  | .bar _ => true
  | .barm a _ => a.pairOk
  | .barrAddI64 d a _ => d.pairOk && a.pairOk
  | .barrAddF32 _ _ _ => true
  | .barrAddF64 d a _ => d.pairOk && a.pairOk
  | .barrMinF32 _ _ _ => true
  | .barrMaxF32 _ _ _ => true
  | .barrMinI64 d a _ => d.pairOk && a.pairOk
  | .barrMaxI64 d a _ => d.pairOk && a.pairOk
  | .barrOrB32 _ _ _ => true
  | .fenceC _ => true
  | .fenceT _ => true
  | .fenceD _ => true
  | .fenceK _ => true
  | .fenceX _ => true
  | .txb _ => true
  | .txe _ => true
  | .txa _ _ => true
  | .txs _ _ => true
  | .bcpG2a a _ _ => sregGroupOk a
  | .bcpG2ax a _ _ => sregGroupOk a
  | .bcpG2rx a _ _ => sregGroupOk a
  | .bcpA2g a _ _ => sregGroupOk a
  | .bcpQ2g a _ _ => sregGroupOk a
  | .bcpG2g a _ _ => sregGroupOk a
  | .bcpRem a _ _ => sregGroupOk a
  | .bcpScld a _ _ => sregGroupOk a
  | .twait a _ => sregPairOk a
  | .twany a _ => sregPairOk a
  | .tfirst _ a _ => sregPairOk a
  | .tclr a _ => sregPairOk a
  | .tstat d _ _ => sregPairOk d
  | .mmodeC _ => true
  | .mmodeS _ => true
  | .mcal _ => true
  | .mmulEx _ a c _ => sregGroupOk a && sregGroupOk c
  | .mmulAp1 _ a c _ => sregGroupOk a && sregGroupOk c
  | .mmulAp2 _ a c _ => sregGroupOk a && sregGroupOk c
  | .mmulAp4 _ a c _ => sregGroupOk a && sregGroupOk c
  | .mzero a _ => sregGroupOk a
  | .mrd _ a _ => sregPairOk a
  | .mwr _ a _ => sregPairOk a
  | .mdrain a _ _ => sregGroupOk a
  | .mdrainAddF32 a _ _ => sregGroupOk a
  | .mdrainAddI32 a _ _ => sregGroupOk a
  | .mdrainAddI64 a _ _ => sregGroupOk a
  | .trap _ _ => true
  | .brk _ _ => true
  | .eret _ => true
  | .srd d sr _ => srdOk d sr
  | .swr dst _ => swrOk dst
  | .srds d sr _ => srdsOk d sr
  | .mov16 _ _ _ => true
  | .add16 _ _ _ => true
  | .sub16 _ _ _ => true
  | .and16 _ _ _ => true
  | .or16 _ _ _ => true
  | .xor16 _ _ _ => true
  | .shl16 _ _ _ => true
  | .shr16 _ _ _ => true
  | .addi16 _ _ _ => true
  | .mul16 _ _ _ => true
  | .fadd16 _ _ _ => true
  | .fsub16 _ _ _ => true
  | .fmul16 _ _ _ => true
  | .fmax16 _ _ _ => true
  | .fmin16 _ _ _ => true
  | .slotPick _ _ _ => true
  | .runLimit _ => true
  | .resultReturn _ _ => true
  | .trapDelivery _ => true
  | .joinwWake _ => true
  | .waitwWake _ => true
  | .warpCommit _ => true
  | .rollback _ => true
  | .cautiousModeEnd _ => true
  | .postedStorePublish _ _ => true
  | .forcedPublish _ _ => true
  | .serialPermitGrant => true
  | .copyComplete _ => true
  | .mmulStart _ _ => true
  | .arrayStep _ _ _ => true
  | .mmulComplete _ _ => true
  | .mmodeCModePoint _ _ => true
  | .mmodeCUnpark _ _ => true
  | .mmodeSVerify _ _ => true
  | .mcalComplete _ _ _ => true
  | .qpush _ _ => true
  | .quantumWrite _ _ => true
  | .qstatClearOvf _ _ => true
  | .registerWrite _ _ => true
  | .gridQuery _ => true
  | .gridDrain _ => true
  | .gridResume _ => true
  | .gridKill _ => true
  | .warpKillStop _ => true
  | .admission _ => true
  | .waitWordNotify _ => true
  | .teamSelect => true
  | .teamPlacement _ => true
  | .twinBackoffExpiry _ => true
  | .teamRetire _ _ => true
  | .doneWordAdd _ => true
  | .partialWarpTimeout _ _ _ => true
  | .joinwDueDelay _ _ _ => true
  | .cooperRelease _ _ => true
  | .ringSpill _ _ => true
  | .ringRefill _ _ _ => true
  | .warpYield _ _ => true
  | .warpRestore _ => true
  | .pageWalk _ _ _ _ _ => true
  | .faultRecordEnter => true
  | .fresResolved _ _ => true
  | .fresUnresolvable _ _ => true
  | .fresBackingFailed _ _ => true
  | .shootdownPage _ _ => true
  | .shootdownAsid _ => true
  | .shootdownAll => true
  | .shootdownComplete => true
  | .migrationCommandTake => true
  | .migrationComplete _ _ => true
  | .rds _ _ => true
  | .wrp _ => true
  | .atm _ _ _ _ _ => true
  | .own _ _ => true
  | .wrf _ _ => true
  | .addl _ _ => true
  | .txlk _ _ _ => true
  | .txwr _ _ _ => true
  | .wbd _ _ _ => true
  | .eve _ _ => true
  | .ownh _ _ => true
  | .snpinv _ _ => true
  | .snpinvd _ _ => true
  | .snpfwd _ _ _ => true
  | .snppass _ _ => true
  | .recall _ => true
  | .cmp _ => true
  | .ack _ _ => true
  | .cmpack _ _ => true
  | .retry _ _ => true
  | .rtygnt _ _ => true
  | .data _ _ _ => true
  | .linkReplay _ _ => true
  | .linkRetrain _ _ _ => true
  | .hostReadHalf _ _ => true
  | .hostExclusiveHalf _ _ => true
  | .hostWritebackHalf _ _ _ => true
  | .hostBiResponse _ _ _ _ => true
  | .hostBiTimeout _ => true
  | .putData _ => true
  | .getRequest _ => true
  | .getData _ => true
  | .addData _ => true
  | .remAcknowledgement _ => true
  | .remRetransmit _ => true
  | .remTransferFail _ _ => true
  | .errorRecordFlush _ => true
  | .correctableRecord _ _ _ => true
  | .temperatureBandExit _ _ _ => true
  | .powerOnBoot => true
  | .firmwareUpdate _ => true
  | .managementReset => true
  | .getVersion _ => true
  | .getCapabilities _ => true
  | .negotiateAlgorithms _ => true
  | .getDigests _ => true
  | .getCertificate _ => true
  | .challenge _ => true
  | .getMeasurements _ => true
  | .keyExchange _ => true
  | .finish _ => true
  | .pstateSet _ => true
  | .pstateChangeDone => true
  | .pstatClear _ => true
  | .plimitWrite _ => true
  | .powerLimitThrottle _ _ => true
  | .currentClamp _ => true
  | .thermalTrip => true
  | .illegalInstruction _ => true
  | .instructionFetchFault => true
  | .softError _ _ => true
  | .mainRailsOff => true

end Sys2Proof
end

