-- ==== Sys2Proof/Decode.lean ====
section
/-! DEFINITION. The decoder, from the words of an instruction to `Instr` (R51, R56 to R68, R82 to R88), and the encoder
written from the same tables. A word that fails a decode check has no instruction: it raises ILLEGAL (R68), which is
the row ILLEGAL_INSTRUCTION. -/
namespace Sys2Proof

/- The runtime of Lean 4.33 holds constructor tags up to 244 only, and `Instr` has a constructor for each of the 424 rows:
what builds an `Instr` is evaluated by the kernel and not compiled (DESIGN CHOICE, log entry 9). -/
noncomputable section

/-- A lane field: 0 to 123 direct, 124 vz, 125 to 127 indexed (R65). -/
def VReg.ofCode (c : BitVec 7) : VReg :=
  if h : c.toNat < 124 then .v ⟨c.toNat, h⟩
  else match c.toNat with
    | 124 => .z
    | 125 => .ix 0
    | 126 => .ix 1
    | _ => .ix 2

/-- The field value of a lane operand (R65, R71). -/
def VReg.code : VReg → BitVec 7
  | .v n => BitVec.ofNat 7 n.val
  | .z => 124
  | .ix k => BitVec.ofNat 7 (125 + k.val)

/-- A small number in a 7-bit field, higher bits zero. -/
def fld7 {n : Nat} (x : Fin n) : BitVec 7 := BitVec.ofNat 7 x.val

/-- A 7-bit field that holds a number below n (R57, R62, R66): anything else is no instruction. -/
def below (n : Nat) (c : BitVec 7) : Option (Fin n) :=
  if h : c.toNat < n then some ⟨c.toNat, h⟩ else none

/-- A scalar field: 64 to 127 raise ILLEGAL (R66). -/
def sregOf (c : BitVec 7) : Option SReg := below 64 c

/-- A predicate field: bits 6:3 reserved (R83). -/
def pregOf (c : BitVec 7) : Option PReg := below 8 c

/-- An index-register field: 3 to 127 raise ILLEGAL (R57, R139). -/
def xregOf (c : BitVec 7) : Option XReg := below 3 c

/-- A tag field: bit 6 reserved (R233). -/
def tagOf (c : BitVec 7) : Option Tag := below 64 c

/-- A reserved field must be zero (R62). -/
def resv (c : BitVec 7) (i : Option Instr) : Option Instr := if c = 0 then i else none

/-- Bits 4:0 of a field whose bits 6:5 are reserved (R62: the amount of SHI). -/
def low5 (c : BitVec 7) : Option (BitVec 5) := if c.toNat < 32 then some (c.setWidth 5) else none

/-- Bits 2:0 of a field whose bits 6:3 are reserved (R176: PRIO). -/
def low3 (c : BitVec 7) : Option (BitVec 3) := if c.toNat < 8 then some (c.setWidth 3) else none

/-- Bit 0 of a field whose bits 6:1 are reserved (R249: the accumulate bit of MMUL). -/
def low1 (c : BitVec 7) : Option Bool := if c.toNat < 2 then some (c.toNat == 1) else none

/-- A rounding field (R100): 7 is unassigned. -/
def Rnd.ofCode (f : BitVec 3) : Option Rnd :=
  match f.toNat with
  | 0 => some .rne
  | 1 => some .rz
  | 2 => some .rdn
  | 3 => some .rup
  | 4 => some .rna
  | 5 => some .sr
  | 6 => some .dyn
  | _ => none

/-- The value of a rounding field (R100). -/
def Rnd.code : Rnd → BitVec 3
  | .rne => 0
  | .rz => 1
  | .rdn => 2
  | .rup => 3
  | .rna => 4
  | .sr => 5
  | .dyn => 6

/-- FRND's rounding in C[2:0], C[6:3] reserved (R159). -/
def rndOf7 (c : BitVec 7) : Option Rnd := (low3 c).bind Rnd.ofCode

/-- Special-register numbers (R21): a reserved number is ILLEGAL (R22). -/
def SpReg.ofCode (c : BitVec 7) : Option SpReg :=
  match c.toNat with
  | 0x00 => some .lane
  | 0x01 => some .wwid
  | 0x02 => some .warp
  | 0x03 => some .team
  | 0x04 => some .tid
  | 0x05 => some .gtid
  | 0x06 => some .sid
  | 0x07 => some .lastsid
  | 0x08 => some .core
  | 0x09 => some .die
  | 0x0A => some .dev
  | 0x0B => some .grid
  | 0x0C => some .depth
  | 0x0D => some .clock
  | 0x0E => some .time
  | 0x0F => some .tagrdy
  | 0x10 => some .tagerr
  | 0x11 => some .fflags
  | 0x12 => some .wmode
  | 0x13 => some .txst
  | 0x14 => some .rsp
  | 0x15 => some .tflags
  | 0x40 => some .tcause
  | 0x41 => some .tepc
  | 0x42 => some .tmask
  | 0x43 => some .trec
  | 0x44 => some .tscratch
  | 0x45 => some .asid
  | _ => none

/-- The number of a special register (R21). -/
def SpReg.code : SpReg → BitVec 7
  | .lane => 0x00
  | .wwid => 0x01
  | .warp => 0x02
  | .team => 0x03
  | .tid => 0x04
  | .gtid => 0x05
  | .sid => 0x06
  | .lastsid => 0x07
  | .core => 0x08
  | .die => 0x09
  | .dev => 0x0A
  | .grid => 0x0B
  | .depth => 0x0C
  | .clock => 0x0D
  | .time => 0x0E
  | .tagrdy => 0x0F
  | .tagerr => 0x10
  | .fflags => 0x11
  | .wmode => 0x12
  | .txst => 0x13
  | .rsp => 0x14
  | .tflags => 0x15
  | .tcause => 0x40
  | .tepc => 0x41
  | .tmask => 0x42
  | .trec => 0x43
  | .tscratch => 0x44
  | .asid => 0x45

/-- SWR's register number and source field (R261). -/
def SwrDst.ofCode (num src : BitVec 7) : Option SwrDst :=
  (SpReg.ofCode num).bind fun r =>
    match r with
    | .fflags => some (.fflags (VReg.ofCode src))
    | .tflags => some (.tflags (VReg.ofCode src))
    | .wmode => (sregOf src).map .wmode
    | .tscratch => (sregOf src).map .tscratch
    | r => some (.readOnly r src)

/-- The C field of an SWR (R258). -/
def SwrDst.numCode : SwrDst → BitVec 7
  | .fflags _ => 0x11
  | .tflags _ => 0x15
  | .wmode _ => 0x12
  | .tscratch _ => 0x44
  | .readOnly r _ => r.code

/-- The A field of an SWR (R258). -/
def SwrDst.srcCode : SwrDst → BitVec 7
  | .fflags a => a.code
  | .tflags a => a.code
  | .wmode a => fld7 a
  | .tscratch a => fld7 a
  | .readOnly _ a => a

/-- OP 0x01 (R85). -/
def decOp01 (f : BitVec 3) (d a c : BitVec 7) (b : Bool) : Option Instr :=
  match f.toNat with
  | 0 => some (.add (VReg.ofCode d) (VReg.ofCode a) (VReg.ofCode c) b)
  | 1 => some (.sub (VReg.ofCode d) (VReg.ofCode a) (VReg.ofCode c) b)
  | 2 => some (.mul (VReg.ofCode d) (VReg.ofCode a) (VReg.ofCode c) b)
  | 3 => some (.mulhiI32 (VReg.ofCode d) (VReg.ofCode a) (VReg.ofCode c) b)
  | 4 => some (.mulhiN32 (VReg.ofCode d) (VReg.ofCode a) (VReg.ofCode c) b)
  | 5 => resv c <| some (.abs (VReg.ofCode d) (VReg.ofCode a) b)
  | 6 => resv c <| some (.neg (VReg.ofCode d) (VReg.ofCode a) b)
  | _ => none
/-- OP 0x02 (R85). -/
def decOp02 (f : BitVec 3) (d a c : BitVec 7) (b : Bool) : Option Instr :=
  match f.toNat with
  | 0 => some (.minI32 (VReg.ofCode d) (VReg.ofCode a) (VReg.ofCode c) b)
  | 1 => some (.maxI32 (VReg.ofCode d) (VReg.ofCode a) (VReg.ofCode c) b)
  | 2 => some (.minN32 (VReg.ofCode d) (VReg.ofCode a) (VReg.ofCode c) b)
  | 3 => some (.maxN32 (VReg.ofCode d) (VReg.ofCode a) (VReg.ofCode c) b)
  | _ => none
/-- OP 0x03 (R85). -/
def decOp03 (f : BitVec 3) (d a c : BitVec 7) (b : Bool) : Option Instr :=
  match f.toNat with
  | 0 => some (.and (VReg.ofCode d) (VReg.ofCode a) (VReg.ofCode c) b)
  | 1 => some (.or (VReg.ofCode d) (VReg.ofCode a) (VReg.ofCode c) b)
  | 2 => some (.xor (VReg.ofCode d) (VReg.ofCode a) (VReg.ofCode c) b)
  | 3 => some (.andn (VReg.ofCode d) (VReg.ofCode a) (VReg.ofCode c) b)
  | 4 => resv c <| some (.not (VReg.ofCode d) (VReg.ofCode a) b)
  | 5 => resv c <| some (.popc (VReg.ofCode d) (VReg.ofCode a) b)
  | 6 => resv c <| some (.clz (VReg.ofCode d) (VReg.ofCode a) b)
  | _ => resv c <| some (.brev (VReg.ofCode d) (VReg.ofCode a) b)
/-- OP 0x04 (R85). -/
def decOp04 (f : BitVec 3) (d a c : BitVec 7) (b : Bool) : Option Instr :=
  match f.toNat with
  | 0 => some (.shl (VReg.ofCode d) (VReg.ofCode a) (VReg.ofCode c) b)
  | 1 => some (.shr (VReg.ofCode d) (VReg.ofCode a) (VReg.ofCode c) b)
  | 2 => some (.sra (VReg.ofCode d) (VReg.ofCode a) (VReg.ofCode c) b)
  | 3 => some (.rotl (VReg.ofCode d) (VReg.ofCode a) (VReg.ofCode c) b)
  | 4 => some (.rotr (VReg.ofCode d) (VReg.ofCode a) (VReg.ofCode c) b)
  | _ => none
/-- OP 0x05 (R85). -/
def decOp05 (f : BitVec 3) (d a c : BitVec 7) (b : Bool) : Option Instr :=
  match f.toNat with
  | 0 => some (.add64 (VReg.ofCode d) (VReg.ofCode a) (VReg.ofCode c) b)
  | 1 => some (.sub64 (VReg.ofCode d) (VReg.ofCode a) (VReg.ofCode c) b)
  | 2 => some (.mul64 (VReg.ofCode d) (VReg.ofCode a) (VReg.ofCode c) b)
  | 3 => some (.minI64 (VReg.ofCode d) (VReg.ofCode a) (VReg.ofCode c) b)
  | 4 => some (.maxI64 (VReg.ofCode d) (VReg.ofCode a) (VReg.ofCode c) b)
  | 5 => some (.minN64 (VReg.ofCode d) (VReg.ofCode a) (VReg.ofCode c) b)
  | 6 => some (.maxN64 (VReg.ofCode d) (VReg.ofCode a) (VReg.ofCode c) b)
  | _ => resv c <| some (.neg64 (VReg.ofCode d) (VReg.ofCode a) b)
/-- OP 0x06 (R85). -/
def decOp06 (f : BitVec 3) (d a c : BitVec 7) (b : Bool) : Option Instr :=
  match f.toNat with
  | 0 => some (.addc (VReg.ofCode d) (VReg.ofCode a) (VReg.ofCode c) b)
  | 1 => some (.subb (VReg.ofCode d) (VReg.ofCode a) (VReg.ofCode c) b)
  | 2 => some (.madI32 (VReg.ofCode d) (VReg.ofCode a) (VReg.ofCode c) b)
  | 3 => some (.madI64 (VReg.ofCode d) (VReg.ofCode a) (VReg.ofCode c) b)
  | _ => none
/-- OP 0x07 (R85). -/
def decOp07 (f : BitVec 3) (d a c : BitVec 7) (b : Bool) : Option Instr :=
  match f.toNat with
  | 0 => (pregOf d).bind fun d' => some (.cmpEq d' (VReg.ofCode a) (VReg.ofCode c) b)
  | 1 => (pregOf d).bind fun d' => some (.cmpNe d' (VReg.ofCode a) (VReg.ofCode c) b)
  | 2 => (pregOf d).bind fun d' => some (.cmpLtI d' (VReg.ofCode a) (VReg.ofCode c) b)
  | 3 => (pregOf d).bind fun d' => some (.cmpLeI d' (VReg.ofCode a) (VReg.ofCode c) b)
  | 4 => (pregOf d).bind fun d' => some (.cmpLtN d' (VReg.ofCode a) (VReg.ofCode c) b)
  | 5 => (pregOf d).bind fun d' => some (.cmpLeN d' (VReg.ofCode a) (VReg.ofCode c) b)
  | 6 => (pregOf d).bind fun d' => some (.cmpTst d' (VReg.ofCode a) (VReg.ofCode c) b)
  | _ => none
/-- OP 0x08 (R85). -/
def decOp08 (f : BitVec 3) (d a c : BitVec 7) (b : Bool) : Option Instr :=
  match f.toNat with
  | 0 => (pregOf d).bind fun d' => some (.cmp64Eq d' (VReg.ofCode a) (VReg.ofCode c) b)
  | 1 => (pregOf d).bind fun d' => some (.cmp64Ne d' (VReg.ofCode a) (VReg.ofCode c) b)
  | 2 => (pregOf d).bind fun d' => some (.cmp64LtI d' (VReg.ofCode a) (VReg.ofCode c) b)
  | 3 => (pregOf d).bind fun d' => some (.cmp64LeI d' (VReg.ofCode a) (VReg.ofCode c) b)
  | 4 => (pregOf d).bind fun d' => some (.cmp64LtN d' (VReg.ofCode a) (VReg.ofCode c) b)
  | 5 => (pregOf d).bind fun d' => some (.cmp64LeN d' (VReg.ofCode a) (VReg.ofCode c) b)
  | 6 => (pregOf d).bind fun d' => some (.cmp64Tst d' (VReg.ofCode a) (VReg.ofCode c) b)
  | _ => none
/-- OP 0x09 (R85). -/
def decOp09 (f : BitVec 3) (d a c : BitVec 7) (b : Bool) : Option Instr :=
  match f.toNat with
  | 0 => some (.bfeN (VReg.ofCode d) (VReg.ofCode a) (VReg.ofCode c) b)
  | 1 => some (.bfeI (VReg.ofCode d) (VReg.ofCode a) (VReg.ofCode c) b)
  | 2 => some (.bfi (VReg.ofCode d) (VReg.ofCode a) (VReg.ofCode c) b)
  | 3 => some (.fshl (VReg.ofCode d) (VReg.ofCode a) (VReg.ofCode c) b)
  | 4 => some (.fshr (VReg.ofCode d) (VReg.ofCode a) (VReg.ofCode c) b)
  | 5 => some (.prmt (VReg.ofCode d) (VReg.ofCode a) (VReg.ofCode c) b)
  | _ => none
/-- OP 0x0A (R85). -/
def decOp0A (f : BitVec 3) (d a c : BitVec 7) (b : Bool) : Option Instr :=
  some (.sel f.toFin (VReg.ofCode d) (VReg.ofCode a) (VReg.ofCode c) b)
/-- OP 0x0B (R85). -/
def decOp0B (f : BitVec 3) (d a c : BitVec 7) (b : Bool) : Option Instr :=
  some (.addi (VReg.ofCode d) (VReg.ofCode a) (c ++ f) b)
/-- OP 0x0C (R85). -/
def decOp0C (f : BitVec 3) (d a c : BitVec 7) (b : Bool) : Option Instr :=
  some (.andi (VReg.ofCode d) (VReg.ofCode a) (c ++ f) b)
/-- OP 0x0D (R85). -/
def decOp0D (f : BitVec 3) (d a c : BitVec 7) (b : Bool) : Option Instr :=
  some (.ori (VReg.ofCode d) (VReg.ofCode a) (c ++ f) b)
/-- OP 0x0E (R85). -/
def decOp0E (f : BitVec 3) (d a c : BitVec 7) (b : Bool) : Option Instr :=
  some (.xori (VReg.ofCode d) (VReg.ofCode a) (c ++ f) b)
/-- OP 0x0F (R85). -/
def decOp0F (f : BitVec 3) (d a c : BitVec 7) (b : Bool) : Option Instr :=
  match f.toNat with
  | 0 => (low5 c).bind fun n => some (.shli (VReg.ofCode d) (VReg.ofCode a) n b)
  | 1 => (low5 c).bind fun n => some (.shri (VReg.ofCode d) (VReg.ofCode a) n b)
  | 2 => (low5 c).bind fun n => some (.srai (VReg.ofCode d) (VReg.ofCode a) n b)
  | 3 => (low5 c).bind fun n => some (.rotli (VReg.ofCode d) (VReg.ofCode a) n b)
  | _ => none
/-- OP 0x10 (R85). -/
def decOp10 (f : BitVec 3) (d a c : BitVec 7) (b : Bool) : Option Instr :=
  some (.li (VReg.ofCode d) (c ++ a ++ f) b)
/-- OP 0x11 (R85). -/
def decOp11 (f : BitVec 3) (d a c : BitVec 7) (b : Bool) : Option Instr :=
  some (.lih (VReg.ofCode d) (c ++ a ++ f) b)
/-- OP 0x12 (R85). -/
def decOp12 (f : BitVec 3) (d a c : BitVec 7) (b : Bool) : Option Instr :=
  some (.lea (VReg.ofCode d) (VReg.ofCode a) (VReg.ofCode c) f b)
/-- OP 0x13 (R85). -/
def decOp13 (f : BitVec 3) (d a c : BitVec 7) (b : Bool) : Option Instr :=
  some (.leai (VReg.ofCode d) (VReg.ofCode a) (c ++ f) b)
/-- OP 0x14 (R85). -/
def decOp14 (f : BitVec 3) (d a c : BitVec 7) (b : Bool) : Option Instr :=
  (xregOf d).bind fun d' => some (.xset d' (VReg.ofCode a) (c ++ f) b)
/-- OP 0x15 (R85). -/
def decOp15 (f : BitVec 3) (d a c : BitVec 7) (b : Bool) : Option Instr :=
  match f.toNat with
  | 0 => resv c <| (xregOf a).bind fun a' => some (.xget (VReg.ofCode d) a' b)
  | _ => none
/-- OP 0x16 (R85). -/
def decOp16 (f : BitVec 3) (d a c : BitVec 7) (b : Bool) : Option Instr :=
  match f.toNat with
  | 0 => (sregOf d).bind fun d' => (sregOf a).bind fun a' => (sregOf c).bind fun c' => some (.sadd d' a' c' b)
  | 1 => (sregOf d).bind fun d' => (sregOf a).bind fun a' => (sregOf c).bind fun c' => some (.ssub d' a' c' b)
  | 2 => (sregOf d).bind fun d' => (sregOf a).bind fun a' => (sregOf c).bind fun c' => some (.smul d' a' c' b)
  | 3 => (sregOf d).bind fun d' => (sregOf a).bind fun a' => (sregOf c).bind fun c' => some (.sand d' a' c' b)
  | 4 => (sregOf d).bind fun d' => (sregOf a).bind fun a' => (sregOf c).bind fun c' => some (.sor d' a' c' b)
  | 5 => (sregOf d).bind fun d' => (sregOf a).bind fun a' => (sregOf c).bind fun c' => some (.sxor d' a' c' b)
  | 6 => (sregOf d).bind fun d' => (sregOf a).bind fun a' => (sregOf c).bind fun c' => some (.sshl d' a' c' b)
  | _ => (sregOf d).bind fun d' => (sregOf a).bind fun a' => (sregOf c).bind fun c' => some (.sshr d' a' c' b)
/-- OP 0x17 (R85). -/
def decOp17 (f : BitVec 3) (d a c : BitVec 7) (b : Bool) : Option Instr :=
  (sregOf d).bind fun d' => (sregOf a).bind fun a' => some (.saddi d' a' (c ++ f) b)
/-- OP 0x18 (R85). -/
def decOp18 (f : BitVec 3) (d a c : BitVec 7) (b : Bool) : Option Instr :=
  (sregOf d).bind fun d' => some (.sli d' (c ++ a ++ f) b)
/-- OP 0x19 (R85). -/
def decOp19 (f : BitVec 3) (d a c : BitVec 7) (b : Bool) : Option Instr :=
  match f.toNat with
  | 0 => resv c <| (sregOf d).bind fun d' => some (.v2s d' (VReg.ofCode a) b)
  | 1 => resv c <| (sregOf a).bind fun a' => some (.s2v (VReg.ofCode d) a' b)
  | 2 => resv c <| (sregOf d).bind fun d' => (sregOf a).bind fun a' => some (.smov d' a' b)
  | 3 => (pregOf d).bind fun d' => (sregOf a).bind fun a' => (sregOf c).bind fun c' => some (.scmpEq d' a' c' b)
  | 4 => (pregOf d).bind fun d' => (sregOf a).bind fun a' => (sregOf c).bind fun c' => some (.scmpLtI d' a' c' b)
  | 5 => (pregOf d).bind fun d' => (sregOf a).bind fun a' => (sregOf c).bind fun c' => some (.scmpLtN d' a' c' b)
  | 6 => (pregOf d).bind fun d' => (sregOf a).bind fun a' => (sregOf c).bind fun c' => some (.scmpNe d' a' c' b)
  | _ => none
/-- OP 0x1A (R85). -/
def decOp1A (f : BitVec 3) (d a c : BitVec 7) (b : Bool) : Option Instr :=
  match f.toNat with
  | 0 => some (.fadd (VReg.ofCode d) (VReg.ofCode a) (VReg.ofCode c) b)
  | 1 => some (.fsub (VReg.ofCode d) (VReg.ofCode a) (VReg.ofCode c) b)
  | 2 => some (.fmul (VReg.ofCode d) (VReg.ofCode a) (VReg.ofCode c) b)
  | 3 => some (.fmin (VReg.ofCode d) (VReg.ofCode a) (VReg.ofCode c) b)
  | 4 => some (.fmax (VReg.ofCode d) (VReg.ofCode a) (VReg.ofCode c) b)
  | 5 => resv c <| some (.fabs (VReg.ofCode d) (VReg.ofCode a) b)
  | 6 => resv c <| some (.fneg (VReg.ofCode d) (VReg.ofCode a) b)
  | _ => resv c <| some (.fclass (VReg.ofCode d) (VReg.ofCode a) b)
/-- OP 0x1B (R85). -/
def decOp1B (f : BitVec 3) (d a c : BitVec 7) (b : Bool) : Option Instr :=
  match f.toNat with
  | 0 => some (.ffma (VReg.ofCode d) (VReg.ofCode a) (VReg.ofCode c) b)
  | 1 => some (.ffms (VReg.ofCode d) (VReg.ofCode a) (VReg.ofCode c) b)
  | 2 => some (.fnma (VReg.ofCode d) (VReg.ofCode a) (VReg.ofCode c) b)
  | 3 => some (.fnms (VReg.ofCode d) (VReg.ofCode a) (VReg.ofCode c) b)
  | _ => none
/-- OP 0x1C (R85). -/
def decOp1C (f : BitVec 3) (d a c : BitVec 7) (b : Bool) : Option Instr :=
  match f.toNat with
  | 0 => some (.faddF16 (VReg.ofCode d) (VReg.ofCode a) (VReg.ofCode c) b)
  | 1 => some (.fsubF16 (VReg.ofCode d) (VReg.ofCode a) (VReg.ofCode c) b)
  | 2 => some (.fmulF16 (VReg.ofCode d) (VReg.ofCode a) (VReg.ofCode c) b)
  | 3 => some (.fminF16 (VReg.ofCode d) (VReg.ofCode a) (VReg.ofCode c) b)
  | 4 => some (.fmaxF16 (VReg.ofCode d) (VReg.ofCode a) (VReg.ofCode c) b)
  | 5 => resv c <| some (.fabsF16 (VReg.ofCode d) (VReg.ofCode a) b)
  | 6 => resv c <| some (.fnegF16 (VReg.ofCode d) (VReg.ofCode a) b)
  | _ => resv c <| some (.fclassF16 (VReg.ofCode d) (VReg.ofCode a) b)
/-- OP 0x1D (R85). -/
def decOp1D (f : BitVec 3) (d a c : BitVec 7) (b : Bool) : Option Instr :=
  match f.toNat with
  | 0 => some (.faddBf16 (VReg.ofCode d) (VReg.ofCode a) (VReg.ofCode c) b)
  | 1 => some (.fsubBf16 (VReg.ofCode d) (VReg.ofCode a) (VReg.ofCode c) b)
  | 2 => some (.fmulBf16 (VReg.ofCode d) (VReg.ofCode a) (VReg.ofCode c) b)
  | 3 => some (.fminBf16 (VReg.ofCode d) (VReg.ofCode a) (VReg.ofCode c) b)
  | 4 => some (.fmaxBf16 (VReg.ofCode d) (VReg.ofCode a) (VReg.ofCode c) b)
  | 5 => resv c <| some (.fabsBf16 (VReg.ofCode d) (VReg.ofCode a) b)
  | 6 => resv c <| some (.fnegBf16 (VReg.ofCode d) (VReg.ofCode a) b)
  | _ => resv c <| some (.fclassBf16 (VReg.ofCode d) (VReg.ofCode a) b)
/-- OP 0x1E (R85). -/
def decOp1E (f : BitVec 3) (d a c : BitVec 7) (b : Bool) : Option Instr :=
  match f.toNat with
  | 0 => some (.faddF64 (VReg.ofCode d) (VReg.ofCode a) (VReg.ofCode c) b)
  | 1 => some (.fsubF64 (VReg.ofCode d) (VReg.ofCode a) (VReg.ofCode c) b)
  | 2 => some (.fmulF64 (VReg.ofCode d) (VReg.ofCode a) (VReg.ofCode c) b)
  | 3 => some (.fminF64 (VReg.ofCode d) (VReg.ofCode a) (VReg.ofCode c) b)
  | 4 => some (.fmaxF64 (VReg.ofCode d) (VReg.ofCode a) (VReg.ofCode c) b)
  | 5 => some (.ffmaF64 (VReg.ofCode d) (VReg.ofCode a) (VReg.ofCode c) b)
  | 6 => resv c <| some (.fabsF64 (VReg.ofCode d) (VReg.ofCode a) b)
  | _ => resv c <| some (.fnegF64 (VReg.ofCode d) (VReg.ofCode a) b)
/-- OP 0x1F (R85). -/
def decOp1F (f : BitVec 3) (d a c : BitVec 7) (b : Bool) : Option Instr :=
  match f.toNat with
  | 0 => (pregOf d).bind fun d' => some (.fcmpEq d' (VReg.ofCode a) (VReg.ofCode c) b)
  | 1 => (pregOf d).bind fun d' => some (.fcmpLt d' (VReg.ofCode a) (VReg.ofCode c) b)
  | 2 => (pregOf d).bind fun d' => some (.fcmpLe d' (VReg.ofCode a) (VReg.ofCode c) b)
  | 3 => (pregOf d).bind fun d' => some (.fcmpUn d' (VReg.ofCode a) (VReg.ofCode c) b)
  | 4 => (pregOf d).bind fun d' => some (.fcmpEqF64 d' (VReg.ofCode a) (VReg.ofCode c) b)
  | 5 => (pregOf d).bind fun d' => some (.fcmpLtF64 d' (VReg.ofCode a) (VReg.ofCode c) b)
  | 6 => (pregOf d).bind fun d' => some (.fcmpLeF64 d' (VReg.ofCode a) (VReg.ofCode c) b)
  | _ => (pregOf d).bind fun d' => some (.fcmpUnF64 d' (VReg.ofCode a) (VReg.ofCode c) b)
/-- OP 0x20 (R85). -/
def decOp20 (f : BitVec 3) (d a c : BitVec 7) (b : Bool) : Option Instr :=
  (Rnd.ofCode f).bind fun rnd => some (.cvt rnd (VReg.ofCode d) (VReg.ofCode a) c b)
/-- OP 0x21 (R85). -/
def decOp21 (f : BitVec 3) (d a c : BitVec 7) (b : Bool) : Option Instr :=
  match f.toNat with
  | 0 => (rndOf7 c).bind fun rnd => some (.frnd (VReg.ofCode d) (VReg.ofCode a) rnd b)
  | 1 => some (.fscl (VReg.ofCode d) (VReg.ofCode a) (VReg.ofCode c) b)
  | 2 => some (.fpk16 (VReg.ofCode d) (VReg.ofCode a) (VReg.ofCode c) b)
  | 3 => some (.fpkbf (VReg.ofCode d) (VReg.ofCode a) (VReg.ofCode c) b)
  | 4 => resv c <| some (.fupk16 (VReg.ofCode d) (VReg.ofCode a) b)
  | 5 => resv c <| some (.fupkbf (VReg.ofCode d) (VReg.ofCode a) b)
  | _ => none
/-- OP 0x22 (R85). -/
def decOp22 (f : BitVec 3) (d a c : BitVec 7) (b : Bool) : Option Instr :=
  match f.toNat with
  | 0 => some (.dot4I8 (VReg.ofCode d) (VReg.ofCode a) (VReg.ofCode c) b)
  | 1 => some (.dot4N8 (VReg.ofCode d) (VReg.ofCode a) (VReg.ofCode c) b)
  | 2 => some (.dot8I4 (VReg.ofCode d) (VReg.ofCode a) (VReg.ofCode c) b)
  | 3 => some (.dot8N4 (VReg.ofCode d) (VReg.ofCode a) (VReg.ofCode c) b)
  | 4 => some (.fdot4E4m3 (VReg.ofCode d) (VReg.ofCode a) (VReg.ofCode c) b)
  | 5 => some (.fdot4E5m2 (VReg.ofCode d) (VReg.ofCode a) (VReg.ofCode c) b)
  | 6 => some (.fdot8E2m1 (VReg.ofCode d) (VReg.ofCode a) (VReg.ofCode c) b)
  | _ => some (.fdot2Bf16 (VReg.ofCode d) (VReg.ofCode a) (VReg.ofCode c) b)
/-- OP 0x23 (R85). -/
def decOp23 (f : BitVec 3) (d a c : BitVec 7) (b : Bool) : Option Instr :=
  match f.toNat with
  | 0 => resv c <| some (.rcp (VReg.ofCode d) (VReg.ofCode a) b)
  | 1 => resv c <| some (.rsq (VReg.ofCode d) (VReg.ofCode a) b)
  | 2 => resv c <| some (.sqrt (VReg.ofCode d) (VReg.ofCode a) b)
  | 3 => resv c <| some (.exp2 (VReg.ofCode d) (VReg.ofCode a) b)
  | 4 => resv c <| some (.log2 (VReg.ofCode d) (VReg.ofCode a) b)
  | 5 => resv c <| some (.sin (VReg.ofCode d) (VReg.ofCode a) b)
  | 6 => resv c <| some (.cos (VReg.ofCode d) (VReg.ofCode a) b)
  | _ => resv c <| some (.tanh (VReg.ofCode d) (VReg.ofCode a) b)
/-- OP 0x24 (R85). -/
def decOp24 (f : BitVec 3) (d a c : BitVec 7) (b : Bool) : Option Instr :=
  match f.toNat with
  | 0 => some (.rngQ0 (VReg.ofCode d) (VReg.ofCode a) (VReg.ofCode c) b)
  | 1 => some (.rngQ1 (VReg.ofCode d) (VReg.ofCode a) (VReg.ofCode c) b)
  | 2 => some (.rngQ2 (VReg.ofCode d) (VReg.ofCode a) (VReg.ofCode c) b)
  | 3 => some (.rngQ3 (VReg.ofCode d) (VReg.ofCode a) (VReg.ofCode c) b)
  | 4 => some (.rngf (VReg.ofCode d) (VReg.ofCode a) (VReg.ofCode c) b)
  | _ => none
/-- OP 0x25 (R85). -/
def decOp25 (f : BitVec 3) (d a c : BitVec 7) (b : Bool) : Option Instr :=
  match f.toNat with
  | 0 => some (.shflIdx (VReg.ofCode d) (VReg.ofCode a) (VReg.ofCode c) b)
  | 1 => some (.shflUp (VReg.ofCode d) (VReg.ofCode a) (VReg.ofCode c) b)
  | 2 => some (.shflDown (VReg.ofCode d) (VReg.ofCode a) (VReg.ofCode c) b)
  | 3 => some (.shflXor (VReg.ofCode d) (VReg.ofCode a) (VReg.ofCode c) b)
  | _ => none
/-- OP 0x26 (R85). -/
def decOp26 (f : BitVec 3) (d a c : BitVec 7) (b : Bool) : Option Instr :=
  match f.toNat with
  | 0 => resv c <| (pregOf d).bind fun d' => (pregOf a).bind fun a' => some (.voteAny d' a' b)
  | 1 => resv c <| (pregOf d).bind fun d' => (pregOf a).bind fun a' => some (.voteAll d' a' b)
  | 2 => resv c <| (pregOf d).bind fun d' => (pregOf a).bind fun a' => some (.voteEq d' a' b)
  | 3 => resv c <| (sregOf d).bind fun d' => (pregOf a).bind fun a' => some (.voteBallot d' a' b)
  | 4 => resv c <| some (.voteMatch (VReg.ofCode d) (VReg.ofCode a) b)
  | 6 => resv c <| resv a <| (sregOf d).bind fun d' => some (.voteActive d' b)
  | 7 => resv c <| resv a <| (pregOf d).bind fun d' => some (.voteElect d' b)
  | _ => none
/-- OP 0x27 (R85). -/
def decOp27 (f : BitVec 3) (d a c : BitVec 7) (b : Bool) : Option Instr :=
  some (.br (c ++ a ++ f.extractLsb' 1 2) (f.getLsbD 0) ((d.extractLsb' 4 3).toFin) (d.extractLsb' 1 3) (d.getLsbD 0) b)
/-- OP 0x28 (R85). -/
def decOp28 (f : BitVec 3) (d a c : BitVec 7) (b : Bool) : Option Instr :=
  some (.call (c ++ a ++ f.extractLsb' 1 2) (f.getLsbD 0) ((d.extractLsb' 4 3).toFin) (d.extractLsb' 1 3) (d.getLsbD 0) b)
/-- OP 0x29 (R85). -/
def decOp29 (f : BitVec 3) (d a c : BitVec 7) (b : Bool) : Option Instr :=
  match f.toNat with
  | 0 => resv c <| resv d <| some (.jmpi (VReg.ofCode a) b)
  | 1 => resv c <| resv d <| some (.calli (VReg.ofCode a) b)
  | 2 => resv c <| resv a <| resv d <| some (.ret b)
  | 3 => resv a <| resv d <| (low3 c).bind fun n => some (.prio n b)
  | 4 => resv c <| resv a <| resv d <| some (.exit b)
  | 5 => resv c <| resv a <| resv d <| some (.nop b)
  | _ => none
/-- OP 0x2A (R85). -/
def decOp2A (f : BitVec 3) (d a c : BitVec 7) (b : Bool) : Option Instr :=
  (pregOf d).bind fun d' => some (.spawn f d' (VReg.ofCode a) (VReg.ofCode c) b)
/-- OP 0x2B (R85). -/
def decOp2B (f : BitVec 3) (d a c : BitVec 7) (b : Bool) : Option Instr :=
  match f.toNat with
  | 0 => resv c <| resv d <| some (.joinw (VReg.ofCode a) b)
  | 1 => resv c <| (pregOf d).bind fun d' => some (.joint d' (VReg.ofCode a) b)
  | 2 => resv d <| some (.waitw (VReg.ofCode a) (VReg.ofCode c) b)
  | 3 => resv c <| (pregOf d).bind fun d' => some (.launch d' (VReg.ofCode a) b)
  | _ => none
/-- OP 0x2C (R85). -/
def decOp2C (f : BitVec 3) (d a c : BitVec 7) (b : Bool) : Option Instr :=
  match f.toNat with
  | 0 => some (.ldgB8N (VReg.ofCode d) (VReg.ofCode a) c b)
  | 1 => some (.ldgB8I (VReg.ofCode d) (VReg.ofCode a) c b)
  | 2 => some (.ldgB16N (VReg.ofCode d) (VReg.ofCode a) c b)
  | 3 => some (.ldgB16I (VReg.ofCode d) (VReg.ofCode a) c b)
  | 4 => some (.ldgB32 (VReg.ofCode d) (VReg.ofCode a) c b)
  | 5 => some (.ldgB64 (VReg.ofCode d) (VReg.ofCode a) c b)
  | 6 => some (.ldgB128 (VReg.ofCode d) (VReg.ofCode a) c b)
  | _ => none
/-- OP 0x2D (R85). -/
def decOp2D (f : BitVec 3) (d a c : BitVec 7) (b : Bool) : Option Instr :=
  match f.toNat with
  | 0 => some (.stgB8 (VReg.ofCode d) (VReg.ofCode a) c b)
  | 1 => some (.stgB16 (VReg.ofCode d) (VReg.ofCode a) c b)
  | 2 => some (.stgB32 (VReg.ofCode d) (VReg.ofCode a) c b)
  | 3 => some (.stgB64 (VReg.ofCode d) (VReg.ofCode a) c b)
  | 4 => some (.stgB128 (VReg.ofCode d) (VReg.ofCode a) c b)
  | _ => none
/-- OP 0x2E (R85). -/
def decOp2E (f : BitVec 3) (d a c : BitVec 7) (b : Bool) : Option Instr :=
  match f.toNat with
  | 0 => some (.stgpB8 (VReg.ofCode d) (VReg.ofCode a) c b)
  | 1 => some (.stgpB16 (VReg.ofCode d) (VReg.ofCode a) c b)
  | 2 => some (.stgpB32 (VReg.ofCode d) (VReg.ofCode a) c b)
  | 3 => some (.stgpB64 (VReg.ofCode d) (VReg.ofCode a) c b)
  | 4 => some (.stgpB128 (VReg.ofCode d) (VReg.ofCode a) c b)
  | _ => none
/-- OP 0x2F (R85). -/
def decOp2F (f : BitVec 3) (d a c : BitVec 7) (b : Bool) : Option Instr :=
  match f.toNat with
  | 0 => some (.ldaB8N (VReg.ofCode d) (VReg.ofCode a) c b)
  | 1 => some (.ldaB8I (VReg.ofCode d) (VReg.ofCode a) c b)
  | 2 => some (.ldaB16N (VReg.ofCode d) (VReg.ofCode a) c b)
  | 3 => some (.ldaB16I (VReg.ofCode d) (VReg.ofCode a) c b)
  | 4 => some (.ldaB32 (VReg.ofCode d) (VReg.ofCode a) c b)
  | 5 => some (.ldaB64 (VReg.ofCode d) (VReg.ofCode a) c b)
  | 6 => some (.ldaB128 (VReg.ofCode d) (VReg.ofCode a) c b)
  | _ => none
/-- OP 0x30 (R85). -/
def decOp30 (f : BitVec 3) (d a c : BitVec 7) (b : Bool) : Option Instr :=
  match f.toNat with
  | 0 => some (.staB8 (VReg.ofCode d) (VReg.ofCode a) c b)
  | 1 => some (.staB16 (VReg.ofCode d) (VReg.ofCode a) c b)
  | 2 => some (.staB32 (VReg.ofCode d) (VReg.ofCode a) c b)
  | 3 => some (.staB64 (VReg.ofCode d) (VReg.ofCode a) c b)
  | 4 => some (.staB128 (VReg.ofCode d) (VReg.ofCode a) c b)
  | _ => none
/-- OP 0x31 (R85). -/
def decOp31 (f : BitVec 3) (d a c : BitVec 7) (b : Bool) : Option Instr :=
  match f.toNat with
  | 0 => some (.ldpB32 (VReg.ofCode d) (VReg.ofCode a) c b)
  | 1 => some (.ldpB64 (VReg.ofCode d) (VReg.ofCode a) c b)
  | 2 => some (.ldpB128 (VReg.ofCode d) (VReg.ofCode a) c b)
  | 3 => some (.stpB32 (VReg.ofCode d) (VReg.ofCode a) c b)
  | 4 => some (.stpB64 (VReg.ofCode d) (VReg.ofCode a) c b)
  | 5 => some (.stpB128 (VReg.ofCode d) (VReg.ofCode a) c b)
  | _ => none
/-- OP 0x32 (R85). -/
def decOp32 (f : BitVec 3) (d a c : BitVec 7) (b : Bool) : Option Instr :=
  match f.toNat with
  | 0 => resv d <| some (.pfgL1 (VReg.ofCode a) c b)
  | 1 => resv d <| some (.pfgL2 (VReg.ofCode a) c b)
  | 2 => some (.ldc (VReg.ofCode d) (VReg.ofCode a) c b)
  | _ => none
/-- OP 0x33 (R85). -/
def decOp33 (f : BitVec 3) (d a c : BitVec 7) (b : Bool) : Option Instr :=
  match f.toNat with
  | 0 => some (.atomAdd (VReg.ofCode d) (VReg.ofCode a) (VReg.ofCode c) b)
  | 1 => some (.atomMinI (VReg.ofCode d) (VReg.ofCode a) (VReg.ofCode c) b)
  | 2 => some (.atomMaxI (VReg.ofCode d) (VReg.ofCode a) (VReg.ofCode c) b)
  | 3 => some (.atomAnd (VReg.ofCode d) (VReg.ofCode a) (VReg.ofCode c) b)
  | 4 => some (.atomOr (VReg.ofCode d) (VReg.ofCode a) (VReg.ofCode c) b)
  | 5 => some (.atomXor (VReg.ofCode d) (VReg.ofCode a) (VReg.ofCode c) b)
  | 6 => some (.atomXchg (VReg.ofCode d) (VReg.ofCode a) (VReg.ofCode c) b)
  | _ => some (.atomFaddF32 (VReg.ofCode d) (VReg.ofCode a) (VReg.ofCode c) b)
/-- OP 0x34 (R85). -/
def decOp34 (f : BitVec 3) (d a c : BitVec 7) (b : Bool) : Option Instr :=
  match f.toNat with
  | 0 => some (.atomAddI64 (VReg.ofCode d) (VReg.ofCode a) (VReg.ofCode c) b)
  | 1 => some (.atomMinI64 (VReg.ofCode d) (VReg.ofCode a) (VReg.ofCode c) b)
  | 2 => some (.atomMaxI64 (VReg.ofCode d) (VReg.ofCode a) (VReg.ofCode c) b)
  | 3 => some (.atomMinN64 (VReg.ofCode d) (VReg.ofCode a) (VReg.ofCode c) b)
  | 4 => some (.atomMaxN64 (VReg.ofCode d) (VReg.ofCode a) (VReg.ofCode c) b)
  | 5 => some (.atomXchg64 (VReg.ofCode d) (VReg.ofCode a) (VReg.ofCode c) b)
  | 6 => some (.atomAddI128 (VReg.ofCode d) (VReg.ofCode a) (VReg.ofCode c) b)
  | _ => some (.atomFaddF64 (VReg.ofCode d) (VReg.ofCode a) (VReg.ofCode c) b)
/-- OP 0x35 (R85). -/
def decOp35 (f : BitVec 3) (d a c : BitVec 7) (b : Bool) : Option Instr :=
  match f.toNat with
  | 0 => some (.cas32 (VReg.ofCode d) (VReg.ofCode a) (VReg.ofCode c) b)
  | 1 => some (.cas64 (VReg.ofCode d) (VReg.ofCode a) (VReg.ofCode c) b)
  | 2 => some (.cas128 (VReg.ofCode d) (VReg.ofCode a) (VReg.ofCode c) b)
  | _ => none
/-- OP 0x36 (R85). -/
def decOp36 (f : BitVec 3) (d a c : BitVec 7) (b : Bool) : Option Instr :=
  match f.toNat with
  | 0 => resv c <| resv a <| resv d <| some (.bar b)
  | 1 => resv c <| resv d <| some (.barm (VReg.ofCode a) b)
  | _ => none
/-- OP 0x37 (R85). -/
def decOp37 (f : BitVec 3) (d a c : BitVec 7) (b : Bool) : Option Instr :=
  match f.toNat with
  | 0 => resv c <| some (.barrAddI64 (VReg.ofCode d) (VReg.ofCode a) b)
  | 1 => resv c <| some (.barrAddF32 (VReg.ofCode d) (VReg.ofCode a) b)
  | 2 => resv c <| some (.barrAddF64 (VReg.ofCode d) (VReg.ofCode a) b)
  | 3 => resv c <| some (.barrMinF32 (VReg.ofCode d) (VReg.ofCode a) b)
  | 4 => resv c <| some (.barrMaxF32 (VReg.ofCode d) (VReg.ofCode a) b)
  | 5 => resv c <| some (.barrMinI64 (VReg.ofCode d) (VReg.ofCode a) b)
  | 6 => resv c <| some (.barrMaxI64 (VReg.ofCode d) (VReg.ofCode a) b)
  | _ => resv c <| some (.barrOrB32 (VReg.ofCode d) (VReg.ofCode a) b)
/-- OP 0x38 (R85). -/
def decOp38 (f : BitVec 3) (d a c : BitVec 7) (b : Bool) : Option Instr :=
  match f.toNat with
  | 0 => resv c <| resv a <| resv d <| some (.fenceC b)
  | 1 => resv c <| resv a <| resv d <| some (.fenceT b)
  | 2 => resv c <| resv a <| resv d <| some (.fenceD b)
  | 3 => resv c <| resv a <| resv d <| some (.fenceK b)
  | 4 => resv c <| resv a <| resv d <| some (.fenceX b)
  | _ => none
/-- OP 0x39 (R85). -/
def decOp39 (f : BitVec 3) (d a c : BitVec 7) (b : Bool) : Option Instr :=
  match f.toNat with
  | 0 => resv c <| resv a <| resv d <| some (.txb b)
  | 1 => resv c <| resv a <| resv d <| some (.txe b)
  | 2 => resv c <| resv d <| some (.txa (VReg.ofCode a) b)
  | 3 => resv c <| resv a <| (pregOf d).bind fun d' => some (.txs d' b)
  | _ => none
/-- OP 0x3A (R85). -/
def decOp3A (f : BitVec 3) (d a c : BitVec 7) (b : Bool) : Option Instr :=
  match f.toNat with
  | 0 => resv c <| (sregOf a).bind fun a' => (tagOf d).bind fun t' => some (.bcpG2a a' t' b)
  | 1 => resv c <| (sregOf a).bind fun a' => (tagOf d).bind fun t' => some (.bcpG2ax a' t' b)
  | 2 => resv c <| (sregOf a).bind fun a' => (tagOf d).bind fun t' => some (.bcpG2rx a' t' b)
  | 3 => resv c <| (sregOf a).bind fun a' => (tagOf d).bind fun t' => some (.bcpA2g a' t' b)
  | 4 => resv c <| (sregOf a).bind fun a' => (tagOf d).bind fun t' => some (.bcpQ2g a' t' b)
  | 5 => resv c <| (sregOf a).bind fun a' => (tagOf d).bind fun t' => some (.bcpG2g a' t' b)
  | 6 => resv c <| (sregOf a).bind fun a' => (tagOf d).bind fun t' => some (.bcpRem a' t' b)
  | _ => resv c <| (sregOf a).bind fun a' => (tagOf d).bind fun t' => some (.bcpScld a' t' b)
/-- OP 0x3B (R85). -/
def decOp3B (f : BitVec 3) (d a c : BitVec 7) (b : Bool) : Option Instr :=
  match f.toNat with
  | 0 => resv c <| resv d <| (sregOf a).bind fun a' => some (.twait a' b)
  | 1 => resv c <| resv d <| (sregOf a).bind fun a' => some (.twany a' b)
  | 2 => resv c <| (sregOf d).bind fun d' => (sregOf a).bind fun a' => some (.tfirst d' a' b)
  | 3 => resv c <| resv d <| (sregOf a).bind fun a' => some (.tclr a' b)
  | 4 => resv a <| (sregOf d).bind fun d' => (tagOf c).bind fun t' => some (.tstat d' t' b)
  | _ => none
/-- OP 0x3C (R85). -/
def decOp3C (f : BitVec 3) (d a c : BitVec 7) (b : Bool) : Option Instr :=
  match f.toNat with
  | 0 => resv c <| resv a <| resv d <| some (.mmodeC b)
  | 1 => resv c <| resv a <| resv d <| some (.mmodeS b)
  | 2 => resv c <| resv a <| resv d <| some (.mcal b)
  | _ => none
/-- OP 0x3D (R85). -/
def decOp3D (f : BitVec 3) (d a c : BitVec 7) (b : Bool) : Option Instr :=
  match f.toNat with
  | 0 => (low1 d).bind fun acc => (sregOf a).bind fun a' => (sregOf c).bind fun c' => some (.mmulEx acc a' c' b)
  | 1 => (low1 d).bind fun acc => (sregOf a).bind fun a' => (sregOf c).bind fun c' => some (.mmulAp1 acc a' c' b)
  | 2 => (low1 d).bind fun acc => (sregOf a).bind fun a' => (sregOf c).bind fun c' => some (.mmulAp2 acc a' c' b)
  | 3 => (low1 d).bind fun acc => (sregOf a).bind fun a' => (sregOf c).bind fun c' => some (.mmulAp4 acc a' c' b)
  | _ => none
/-- OP 0x3E (R85). -/
def decOp3E (f : BitVec 3) (d a c : BitVec 7) (b : Bool) : Option Instr :=
  match f.toNat with
  | 0 => resv c <| resv d <| (sregOf a).bind fun a' => some (.mzero a' b)
  | 1 => resv c <| (sregOf a).bind fun a' => some (.mrd (VReg.ofCode d) a' b)
  | 2 => resv c <| (sregOf a).bind fun a' => some (.mwr (VReg.ofCode d) a' b)
  | 3 => resv c <| (sregOf a).bind fun a' => (tagOf d).bind fun t' => some (.mdrain a' t' b)
  | 4 => resv c <| (sregOf a).bind fun a' => (tagOf d).bind fun t' => some (.mdrainAddF32 a' t' b)
  | 5 => resv c <| (sregOf a).bind fun a' => (tagOf d).bind fun t' => some (.mdrainAddI32 a' t' b)
  | 6 => resv c <| (sregOf a).bind fun a' => (tagOf d).bind fun t' => some (.mdrainAddI64 a' t' b)
  | _ => none
/-- OP 0x3F (R85). -/
def decOp3F (f : BitVec 3) (d a c : BitVec 7) (b : Bool) : Option Instr :=
  match f.toNat with
  | 0 => resv a <| resv d <| some (.trap c b)
  | 1 => resv a <| resv d <| some (.brk c b)
  | 2 => resv c <| resv a <| resv d <| some (.eret b)
  | 3 => resv a <| (SpReg.ofCode c).bind fun sr' => some (.srd (VReg.ofCode d) sr' b)
  | 4 => resv d <| (SwrDst.ofCode c a).bind fun dst => some (.swr dst b)
  | 5 => resv a <| (sregOf d).bind fun d' => (SpReg.ofCode c).bind fun sr' => some (.srds d' sr' b)
  | _ => none
/-- The major map of R85: the row of a 32-bit word by its OP, before the checks of WellFormed. -/
def decodeMajor (op : BitVec 6) (f : BitVec 3) (d a c : BitVec 7) (b : Bool) : Option Instr :=
  match op.toNat with
  | 1 => decOp01 f d a c b
  | 2 => decOp02 f d a c b
  | 3 => decOp03 f d a c b
  | 4 => decOp04 f d a c b
  | 5 => decOp05 f d a c b
  | 6 => decOp06 f d a c b
  | 7 => decOp07 f d a c b
  | 8 => decOp08 f d a c b
  | 9 => decOp09 f d a c b
  | 10 => decOp0A f d a c b
  | 11 => decOp0B f d a c b
  | 12 => decOp0C f d a c b
  | 13 => decOp0D f d a c b
  | 14 => decOp0E f d a c b
  | 15 => decOp0F f d a c b
  | 16 => decOp10 f d a c b
  | 17 => decOp11 f d a c b
  | 18 => decOp12 f d a c b
  | 19 => decOp13 f d a c b
  | 20 => decOp14 f d a c b
  | 21 => decOp15 f d a c b
  | 22 => decOp16 f d a c b
  | 23 => decOp17 f d a c b
  | 24 => decOp18 f d a c b
  | 25 => decOp19 f d a c b
  | 26 => decOp1A f d a c b
  | 27 => decOp1B f d a c b
  | 28 => decOp1C f d a c b
  | 29 => decOp1D f d a c b
  | 30 => decOp1E f d a c b
  | 31 => decOp1F f d a c b
  | 32 => decOp20 f d a c b
  | 33 => decOp21 f d a c b
  | 34 => decOp22 f d a c b
  | 35 => decOp23 f d a c b
  | 36 => decOp24 f d a c b
  | 37 => decOp25 f d a c b
  | 38 => decOp26 f d a c b
  | 39 => decOp27 f d a c b
  | 40 => decOp28 f d a c b
  | 41 => decOp29 f d a c b
  | 42 => decOp2A f d a c b
  | 43 => decOp2B f d a c b
  | 44 => decOp2C f d a c b
  | 45 => decOp2D f d a c b
  | 46 => decOp2E f d a c b
  | 47 => decOp2F f d a c b
  | 48 => decOp30 f d a c b
  | 49 => decOp31 f d a c b
  | 50 => decOp32 f d a c b
  | 51 => decOp33 f d a c b
  | 52 => decOp34 f d a c b
  | 53 => decOp35 f d a c b
  | 54 => decOp36 f d a c b
  | 55 => decOp37 f d a c b
  | 56 => decOp38 f d a c b
  | 57 => decOp39 f d a c b
  | 58 => decOp3A f d a c b
  | 59 => decOp3B f d a c b
  | 60 => decOp3C f d a c b
  | 61 => decOp3D f d a c b
  | 62 => decOp3E f d a c b
  | 63 => decOp3F f d a c b
  | _ => none
/-- The 16-bit form (R63): op4 in bits 5:2, D5 in 10:6, C5 in 15:11. -/
def decodeHalf (op4 : BitVec 4) (d c : BitVec 5) (b : Bool) : Option Instr :=
  match op4.toNat with
  | 1 => some (.mov16 d.toFin c.toFin b)
  | 2 => some (.add16 d.toFin c.toFin b)
  | 3 => some (.sub16 d.toFin c.toFin b)
  | 4 => some (.and16 d.toFin c.toFin b)
  | 5 => some (.or16 d.toFin c.toFin b)
  | 6 => some (.xor16 d.toFin c.toFin b)
  | 7 => some (.shl16 d.toFin c.toFin b)
  | 8 => some (.shr16 d.toFin c.toFin b)
  | 9 => some (.addi16 d.toFin c b)
  | 10 => some (.mul16 d.toFin c.toFin b)
  | 11 => some (.fadd16 d.toFin c.toFin b)
  | 12 => some (.fsub16 d.toFin c.toFin b)
  | 13 => some (.fmul16 d.toFin c.toFin b)
  | 14 => some (.fmax16 d.toFin c.toFin b)
  | 15 => some (.fmin16 d.toFin c.toFin b)
  | _ => none

/-- A 32-bit word (R82): every decode check of R68 that the word alone decides. -/
def decodeWord (w : Word) : Option Instr :=
  match decodeMajor (w.extractLsb' 2 6) (w.extractLsb' 15 3) (w.extractLsb' 8 7) (w.extractLsb' 18 7)
      (w.extractLsb' 25 7) (w.getLsbD 1) with
  | some i => if i.wellFormed then some i else none
  | none => none

/-- A 16-bit word (R63). -/
def decodeHalfWord (h : BitVec 16) : Option Instr :=
  decodeHalf (h.extractLsb' 2 4) (h.extractLsb' 6 5) (h.extractLsb' 11 5) (h.getLsbD 1)

/-- Little-endian bytes as one number (R9, R51). -/
def leNat : List Byte → Nat
  | [] => 0
  | b :: bs => b.toNat + 256 * leNat bs

/-- The n little-endian bytes of a number. -/
def leBytes (v : Nat) : Nat → List Byte
  | 0 => []
  | n + 1 => BitVec.ofNat 8 v :: leBytes (v / 256) n

/-- The length in bytes of the instruction whose first byte is given: bit 0 is L (R51). -/
def insnLength (first : Byte) : Nat := if first.getLsbD 0 then 4 else 2

/-- Decode an instruction from the bytes at the program counter, with the bytes that follow it. -/
def decodeBytes : List Byte → Option (Instr × List Byte)
  | b0 :: b1 :: rest =>
    if b0.getLsbD 0 then
      match rest with
      | b2 :: b3 :: tail =>
        (decodeWord (BitVec.ofNat 32 (leNat [b0, b1, b2, b3]))).map fun i => (i, tail)
      | _ => none
    else (decodeHalfWord (BitVec.ofNat 16 (leNat [b0, b1]))).map fun i => (i, rest)
  | _ => none

/-- The instruction the decoder reads from bits numbered as spec/opcode_table.json numbers them, laid out as the
hardware stores them (little-endian, R51), with zeros above `nbits` up to the longest instruction. -/
def decodeTableWord (nbits w : Nat) : Option Instr :=
  (decodeBytes (leBytes (w % 2 ^ nbits) 4)).map Prod.fst

/-- A 32-bit word from its fields (R82). -/
def fullWord (c a : BitVec 7) (f : BitVec 3) (d : BitVec 7) (op : BitVec 6) (b : Bool) : Word :=
  c ++ a ++ f ++ d ++ op ++ BitVec.ofBool b ++ 1#1

/-- A B-format word (R59). -/
def branchWord (op : BitVec 6) (off : BitVec 16) (pn : Bool) (pg : PReg) (pr : BitVec 3) (u b : Bool) : Word :=
  off ++ BitVec.ofBool pn ++ BitVec.ofNat 3 pg.val ++ pr ++ BitVec.ofBool u ++ op ++ BitVec.ofBool b ++ 1#1

/-- A 16-bit word (R63, R82). -/
def halfWord (op4 : BitVec 4) (d c : BitVec 5) (b : Bool) : BitVec 16 :=
  c ++ d ++ op4 ++ BitVec.ofBool b ++ 0#1


/-- The words of an instruction, as the number whose bits the table numbers, with its length in bytes; an event has no
words. DESIGN CHOICE, log entry 57. -/
def encodeNat : Instr → Option (Nat × Nat)
  | .add d a c b => some ((fullWord c.code a.code 0 d.code 1 b).toNat, 4)
  | .sub d a c b => some ((fullWord c.code a.code 1 d.code 1 b).toNat, 4)
  | .mul d a c b => some ((fullWord c.code a.code 2 d.code 1 b).toNat, 4)
  | .mulhiI32 d a c b => some ((fullWord c.code a.code 3 d.code 1 b).toNat, 4)
  | .mulhiN32 d a c b => some ((fullWord c.code a.code 4 d.code 1 b).toNat, 4)
  | .abs d a b => some ((fullWord 0 a.code 5 d.code 1 b).toNat, 4)
  | .neg d a b => some ((fullWord 0 a.code 6 d.code 1 b).toNat, 4)
  | .minI32 d a c b => some ((fullWord c.code a.code 0 d.code 2 b).toNat, 4)
  | .maxI32 d a c b => some ((fullWord c.code a.code 1 d.code 2 b).toNat, 4)
  | .minN32 d a c b => some ((fullWord c.code a.code 2 d.code 2 b).toNat, 4)
  | .maxN32 d a c b => some ((fullWord c.code a.code 3 d.code 2 b).toNat, 4)
  | .and d a c b => some ((fullWord c.code a.code 0 d.code 3 b).toNat, 4)
  | .or d a c b => some ((fullWord c.code a.code 1 d.code 3 b).toNat, 4)
  | .xor d a c b => some ((fullWord c.code a.code 2 d.code 3 b).toNat, 4)
  | .andn d a c b => some ((fullWord c.code a.code 3 d.code 3 b).toNat, 4)
  | .not d a b => some ((fullWord 0 a.code 4 d.code 3 b).toNat, 4)
  | .popc d a b => some ((fullWord 0 a.code 5 d.code 3 b).toNat, 4)
  | .clz d a b => some ((fullWord 0 a.code 6 d.code 3 b).toNat, 4)
  | .brev d a b => some ((fullWord 0 a.code 7 d.code 3 b).toNat, 4)
  | .shl d a c b => some ((fullWord c.code a.code 0 d.code 4 b).toNat, 4)
  | .shr d a c b => some ((fullWord c.code a.code 1 d.code 4 b).toNat, 4)
  | .sra d a c b => some ((fullWord c.code a.code 2 d.code 4 b).toNat, 4)
  | .rotl d a c b => some ((fullWord c.code a.code 3 d.code 4 b).toNat, 4)
  | .rotr d a c b => some ((fullWord c.code a.code 4 d.code 4 b).toNat, 4)
  | .add64 d a c b => some ((fullWord c.code a.code 0 d.code 5 b).toNat, 4)
  | .sub64 d a c b => some ((fullWord c.code a.code 1 d.code 5 b).toNat, 4)
  | .mul64 d a c b => some ((fullWord c.code a.code 2 d.code 5 b).toNat, 4)
  | .minI64 d a c b => some ((fullWord c.code a.code 3 d.code 5 b).toNat, 4)
  | .maxI64 d a c b => some ((fullWord c.code a.code 4 d.code 5 b).toNat, 4)
  | .minN64 d a c b => some ((fullWord c.code a.code 5 d.code 5 b).toNat, 4)
  | .maxN64 d a c b => some ((fullWord c.code a.code 6 d.code 5 b).toNat, 4)
  | .neg64 d a b => some ((fullWord 0 a.code 7 d.code 5 b).toNat, 4)
  | .addc d a c b => some ((fullWord c.code a.code 0 d.code 6 b).toNat, 4)
  | .subb d a c b => some ((fullWord c.code a.code 1 d.code 6 b).toNat, 4)
  | .madI32 d a c b => some ((fullWord c.code a.code 2 d.code 6 b).toNat, 4)
  | .madI64 d a c b => some ((fullWord c.code a.code 3 d.code 6 b).toNat, 4)
  | .cmpEq d a c b => some ((fullWord c.code a.code 0 (fld7 d) 7 b).toNat, 4)
  | .cmpNe d a c b => some ((fullWord c.code a.code 1 (fld7 d) 7 b).toNat, 4)
  | .cmpLtI d a c b => some ((fullWord c.code a.code 2 (fld7 d) 7 b).toNat, 4)
  | .cmpLeI d a c b => some ((fullWord c.code a.code 3 (fld7 d) 7 b).toNat, 4)
  | .cmpLtN d a c b => some ((fullWord c.code a.code 4 (fld7 d) 7 b).toNat, 4)
  | .cmpLeN d a c b => some ((fullWord c.code a.code 5 (fld7 d) 7 b).toNat, 4)
  | .cmpTst d a c b => some ((fullWord c.code a.code 6 (fld7 d) 7 b).toNat, 4)
  | .cmp64Eq d a c b => some ((fullWord c.code a.code 0 (fld7 d) 8 b).toNat, 4)
  | .cmp64Ne d a c b => some ((fullWord c.code a.code 1 (fld7 d) 8 b).toNat, 4)
  | .cmp64LtI d a c b => some ((fullWord c.code a.code 2 (fld7 d) 8 b).toNat, 4)
  | .cmp64LeI d a c b => some ((fullWord c.code a.code 3 (fld7 d) 8 b).toNat, 4)
  | .cmp64LtN d a c b => some ((fullWord c.code a.code 4 (fld7 d) 8 b).toNat, 4)
  | .cmp64LeN d a c b => some ((fullWord c.code a.code 5 (fld7 d) 8 b).toNat, 4)
  | .cmp64Tst d a c b => some ((fullWord c.code a.code 6 (fld7 d) 8 b).toNat, 4)
  | .bfeN d a c b => some ((fullWord c.code a.code 0 d.code 9 b).toNat, 4)
  | .bfeI d a c b => some ((fullWord c.code a.code 1 d.code 9 b).toNat, 4)
  | .bfi d a c b => some ((fullWord c.code a.code 2 d.code 9 b).toNat, 4)
  | .fshl d a c b => some ((fullWord c.code a.code 3 d.code 9 b).toNat, 4)
  | .fshr d a c b => some ((fullWord c.code a.code 4 d.code 9 b).toNat, 4)
  | .prmt d a c b => some ((fullWord c.code a.code 5 d.code 9 b).toNat, 4)
  | .sel p d a c b => some ((fullWord c.code a.code (BitVec.ofNat 3 p.val) d.code 10 b).toNat, 4)
  | .addi d a imm b => some ((fullWord (imm.extractLsb' 3 7) a.code (imm.extractLsb' 0 3) d.code 11 b).toNat, 4)
  | .andi d a imm b => some ((fullWord (imm.extractLsb' 3 7) a.code (imm.extractLsb' 0 3) d.code 12 b).toNat, 4)
  | .ori d a imm b => some ((fullWord (imm.extractLsb' 3 7) a.code (imm.extractLsb' 0 3) d.code 13 b).toNat, 4)
  | .xori d a imm b => some ((fullWord (imm.extractLsb' 3 7) a.code (imm.extractLsb' 0 3) d.code 14 b).toNat, 4)
  | .shli d a n b => some ((fullWord (n.setWidth 7) a.code 0 d.code 15 b).toNat, 4)
  | .shri d a n b => some ((fullWord (n.setWidth 7) a.code 1 d.code 15 b).toNat, 4)
  | .srai d a n b => some ((fullWord (n.setWidth 7) a.code 2 d.code 15 b).toNat, 4)
  | .rotli d a n b => some ((fullWord (n.setWidth 7) a.code 3 d.code 15 b).toNat, 4)
  | .li d imm b => some ((fullWord (imm.extractLsb' 10 7) (imm.extractLsb' 3 7) (imm.extractLsb' 0 3) d.code 16 b).toNat, 4)
  | .lih d imm b => some ((fullWord (imm.extractLsb' 10 7) (imm.extractLsb' 3 7) (imm.extractLsb' 0 3) d.code 17 b).toNat, 4)
  | .lea d a c sh b => some ((fullWord c.code a.code sh d.code 18 b).toNat, 4)
  | .leai d a imm b => some ((fullWord (imm.extractLsb' 3 7) a.code (imm.extractLsb' 0 3) d.code 19 b).toNat, 4)
  | .xset d a imm b => some ((fullWord (imm.extractLsb' 3 7) a.code (imm.extractLsb' 0 3) (fld7 d) 20 b).toNat, 4)
  | .xget d a b => some ((fullWord 0 (fld7 a) 0 d.code 21 b).toNat, 4)
  | .sadd d a c b => some ((fullWord (fld7 c) (fld7 a) 0 (fld7 d) 22 b).toNat, 4)
  | .ssub d a c b => some ((fullWord (fld7 c) (fld7 a) 1 (fld7 d) 22 b).toNat, 4)
  | .smul d a c b => some ((fullWord (fld7 c) (fld7 a) 2 (fld7 d) 22 b).toNat, 4)
  | .sand d a c b => some ((fullWord (fld7 c) (fld7 a) 3 (fld7 d) 22 b).toNat, 4)
  | .sor d a c b => some ((fullWord (fld7 c) (fld7 a) 4 (fld7 d) 22 b).toNat, 4)
  | .sxor d a c b => some ((fullWord (fld7 c) (fld7 a) 5 (fld7 d) 22 b).toNat, 4)
  | .sshl d a c b => some ((fullWord (fld7 c) (fld7 a) 6 (fld7 d) 22 b).toNat, 4)
  | .sshr d a c b => some ((fullWord (fld7 c) (fld7 a) 7 (fld7 d) 22 b).toNat, 4)
  | .saddi d a imm b => some ((fullWord (imm.extractLsb' 3 7) (fld7 a) (imm.extractLsb' 0 3) (fld7 d) 23 b).toNat, 4)
  | .sli d imm b => some ((fullWord (imm.extractLsb' 10 7) (imm.extractLsb' 3 7) (imm.extractLsb' 0 3) (fld7 d) 24 b).toNat, 4)
  | .v2s d a b => some ((fullWord 0 a.code 0 (fld7 d) 25 b).toNat, 4)
  | .s2v d a b => some ((fullWord 0 (fld7 a) 1 d.code 25 b).toNat, 4)
  | .smov d a b => some ((fullWord 0 (fld7 a) 2 (fld7 d) 25 b).toNat, 4)
  | .scmpEq d a c b => some ((fullWord (fld7 c) (fld7 a) 3 (fld7 d) 25 b).toNat, 4)
  | .scmpLtI d a c b => some ((fullWord (fld7 c) (fld7 a) 4 (fld7 d) 25 b).toNat, 4)
  | .scmpLtN d a c b => some ((fullWord (fld7 c) (fld7 a) 5 (fld7 d) 25 b).toNat, 4)
  | .scmpNe d a c b => some ((fullWord (fld7 c) (fld7 a) 6 (fld7 d) 25 b).toNat, 4)
  | .fadd d a c b => some ((fullWord c.code a.code 0 d.code 26 b).toNat, 4)
  | .fsub d a c b => some ((fullWord c.code a.code 1 d.code 26 b).toNat, 4)
  | .fmul d a c b => some ((fullWord c.code a.code 2 d.code 26 b).toNat, 4)
  | .fmin d a c b => some ((fullWord c.code a.code 3 d.code 26 b).toNat, 4)
  | .fmax d a c b => some ((fullWord c.code a.code 4 d.code 26 b).toNat, 4)
  | .fabs d a b => some ((fullWord 0 a.code 5 d.code 26 b).toNat, 4)
  | .fneg d a b => some ((fullWord 0 a.code 6 d.code 26 b).toNat, 4)
  | .fclass d a b => some ((fullWord 0 a.code 7 d.code 26 b).toNat, 4)
  | .ffma d a c b => some ((fullWord c.code a.code 0 d.code 27 b).toNat, 4)
  | .ffms d a c b => some ((fullWord c.code a.code 1 d.code 27 b).toNat, 4)
  | .fnma d a c b => some ((fullWord c.code a.code 2 d.code 27 b).toNat, 4)
  | .fnms d a c b => some ((fullWord c.code a.code 3 d.code 27 b).toNat, 4)
  | .faddF16 d a c b => some ((fullWord c.code a.code 0 d.code 28 b).toNat, 4)
  | .fsubF16 d a c b => some ((fullWord c.code a.code 1 d.code 28 b).toNat, 4)
  | .fmulF16 d a c b => some ((fullWord c.code a.code 2 d.code 28 b).toNat, 4)
  | .fminF16 d a c b => some ((fullWord c.code a.code 3 d.code 28 b).toNat, 4)
  | .fmaxF16 d a c b => some ((fullWord c.code a.code 4 d.code 28 b).toNat, 4)
  | .fabsF16 d a b => some ((fullWord 0 a.code 5 d.code 28 b).toNat, 4)
  | .fnegF16 d a b => some ((fullWord 0 a.code 6 d.code 28 b).toNat, 4)
  | .fclassF16 d a b => some ((fullWord 0 a.code 7 d.code 28 b).toNat, 4)
  | .faddBf16 d a c b => some ((fullWord c.code a.code 0 d.code 29 b).toNat, 4)
  | .fsubBf16 d a c b => some ((fullWord c.code a.code 1 d.code 29 b).toNat, 4)
  | .fmulBf16 d a c b => some ((fullWord c.code a.code 2 d.code 29 b).toNat, 4)
  | .fminBf16 d a c b => some ((fullWord c.code a.code 3 d.code 29 b).toNat, 4)
  | .fmaxBf16 d a c b => some ((fullWord c.code a.code 4 d.code 29 b).toNat, 4)
  | .fabsBf16 d a b => some ((fullWord 0 a.code 5 d.code 29 b).toNat, 4)
  | .fnegBf16 d a b => some ((fullWord 0 a.code 6 d.code 29 b).toNat, 4)
  | .fclassBf16 d a b => some ((fullWord 0 a.code 7 d.code 29 b).toNat, 4)
  | .faddF64 d a c b => some ((fullWord c.code a.code 0 d.code 30 b).toNat, 4)
  | .fsubF64 d a c b => some ((fullWord c.code a.code 1 d.code 30 b).toNat, 4)
  | .fmulF64 d a c b => some ((fullWord c.code a.code 2 d.code 30 b).toNat, 4)
  | .fminF64 d a c b => some ((fullWord c.code a.code 3 d.code 30 b).toNat, 4)
  | .fmaxF64 d a c b => some ((fullWord c.code a.code 4 d.code 30 b).toNat, 4)
  | .ffmaF64 d a c b => some ((fullWord c.code a.code 5 d.code 30 b).toNat, 4)
  | .fabsF64 d a b => some ((fullWord 0 a.code 6 d.code 30 b).toNat, 4)
  | .fnegF64 d a b => some ((fullWord 0 a.code 7 d.code 30 b).toNat, 4)
  | .fcmpEq d a c b => some ((fullWord c.code a.code 0 (fld7 d) 31 b).toNat, 4)
  | .fcmpLt d a c b => some ((fullWord c.code a.code 1 (fld7 d) 31 b).toNat, 4)
  | .fcmpLe d a c b => some ((fullWord c.code a.code 2 (fld7 d) 31 b).toNat, 4)
  | .fcmpUn d a c b => some ((fullWord c.code a.code 3 (fld7 d) 31 b).toNat, 4)
  | .fcmpEqF64 d a c b => some ((fullWord c.code a.code 4 (fld7 d) 31 b).toNat, 4)
  | .fcmpLtF64 d a c b => some ((fullWord c.code a.code 5 (fld7 d) 31 b).toNat, 4)
  | .fcmpLeF64 d a c b => some ((fullWord c.code a.code 6 (fld7 d) 31 b).toNat, 4)
  | .fcmpUnF64 d a c b => some ((fullWord c.code a.code 7 (fld7 d) 31 b).toNat, 4)
  | .cvt rnd d a cv b => some ((fullWord cv a.code rnd.code d.code 32 b).toNat, 4)
  | .frnd d a rnd b => some ((fullWord (rnd.code.setWidth 7) a.code 0 d.code 33 b).toNat, 4)
  | .fscl d a c b => some ((fullWord c.code a.code 1 d.code 33 b).toNat, 4)
  | .fpk16 d a c b => some ((fullWord c.code a.code 2 d.code 33 b).toNat, 4)
  | .fpkbf d a c b => some ((fullWord c.code a.code 3 d.code 33 b).toNat, 4)
  | .fupk16 d a b => some ((fullWord 0 a.code 4 d.code 33 b).toNat, 4)
  | .fupkbf d a b => some ((fullWord 0 a.code 5 d.code 33 b).toNat, 4)
  | .dot4I8 d a c b => some ((fullWord c.code a.code 0 d.code 34 b).toNat, 4)
  | .dot4N8 d a c b => some ((fullWord c.code a.code 1 d.code 34 b).toNat, 4)
  | .dot8I4 d a c b => some ((fullWord c.code a.code 2 d.code 34 b).toNat, 4)
  | .dot8N4 d a c b => some ((fullWord c.code a.code 3 d.code 34 b).toNat, 4)
  | .fdot4E4m3 d a c b => some ((fullWord c.code a.code 4 d.code 34 b).toNat, 4)
  | .fdot4E5m2 d a c b => some ((fullWord c.code a.code 5 d.code 34 b).toNat, 4)
  | .fdot8E2m1 d a c b => some ((fullWord c.code a.code 6 d.code 34 b).toNat, 4)
  | .fdot2Bf16 d a c b => some ((fullWord c.code a.code 7 d.code 34 b).toNat, 4)
  | .rcp d a b => some ((fullWord 0 a.code 0 d.code 35 b).toNat, 4)
  | .rsq d a b => some ((fullWord 0 a.code 1 d.code 35 b).toNat, 4)
  | .sqrt d a b => some ((fullWord 0 a.code 2 d.code 35 b).toNat, 4)
  | .exp2 d a b => some ((fullWord 0 a.code 3 d.code 35 b).toNat, 4)
  | .log2 d a b => some ((fullWord 0 a.code 4 d.code 35 b).toNat, 4)
  | .sin d a b => some ((fullWord 0 a.code 5 d.code 35 b).toNat, 4)
  | .cos d a b => some ((fullWord 0 a.code 6 d.code 35 b).toNat, 4)
  | .tanh d a b => some ((fullWord 0 a.code 7 d.code 35 b).toNat, 4)
  | .rngQ0 d a c b => some ((fullWord c.code a.code 0 d.code 36 b).toNat, 4)
  | .rngQ1 d a c b => some ((fullWord c.code a.code 1 d.code 36 b).toNat, 4)
  | .rngQ2 d a c b => some ((fullWord c.code a.code 2 d.code 36 b).toNat, 4)
  | .rngQ3 d a c b => some ((fullWord c.code a.code 3 d.code 36 b).toNat, 4)
  | .rngf d a c b => some ((fullWord c.code a.code 4 d.code 36 b).toNat, 4)
  | .shflIdx d a c b => some ((fullWord c.code a.code 0 d.code 37 b).toNat, 4)
  | .shflUp d a c b => some ((fullWord c.code a.code 1 d.code 37 b).toNat, 4)
  | .shflDown d a c b => some ((fullWord c.code a.code 2 d.code 37 b).toNat, 4)
  | .shflXor d a c b => some ((fullWord c.code a.code 3 d.code 37 b).toNat, 4)
  | .voteAny d a b => some ((fullWord 0 (fld7 a) 0 (fld7 d) 38 b).toNat, 4)
  | .voteAll d a b => some ((fullWord 0 (fld7 a) 1 (fld7 d) 38 b).toNat, 4)
  | .voteEq d a b => some ((fullWord 0 (fld7 a) 2 (fld7 d) 38 b).toNat, 4)
  | .voteBallot d a b => some ((fullWord 0 (fld7 a) 3 (fld7 d) 38 b).toNat, 4)
  | .voteMatch d a b => some ((fullWord 0 a.code 4 d.code 38 b).toNat, 4)
  | .voteActive d b => some ((fullWord 0 0 6 (fld7 d) 38 b).toNat, 4)
  | .voteElect d b => some ((fullWord 0 0 7 (fld7 d) 38 b).toNat, 4)
  | .br off pn pg pr u b => some ((branchWord 39 off pn pg pr u b).toNat, 4)
  | .call off pn pg pr u b => some ((branchWord 40 off pn pg pr u b).toNat, 4)
  | .jmpi a b => some ((fullWord 0 a.code 0 0 41 b).toNat, 4)
  | .calli a b => some ((fullWord 0 a.code 1 0 41 b).toNat, 4)
  | .ret b => some ((fullWord 0 0 2 0 41 b).toNat, 4)
  | .prio n b => some ((fullWord (n.setWidth 7) 0 3 0 41 b).toNat, 4)
  | .exit b => some ((fullWord 0 0 4 0 41 b).toNat, 4)
  | .nop b => some ((fullWord 0 0 5 0 41 b).toNat, 4)
  | .spawn e d a c b => some ((fullWord c.code a.code e (fld7 d) 42 b).toNat, 4)
  | .joinw a b => some ((fullWord 0 a.code 0 0 43 b).toNat, 4)
  | .joint d a b => some ((fullWord 0 a.code 1 (fld7 d) 43 b).toNat, 4)
  | .waitw a c b => some ((fullWord c.code a.code 2 0 43 b).toNat, 4)
  | .launch d a b => some ((fullWord 0 a.code 3 (fld7 d) 43 b).toNat, 4)
  | .ldgB8N d a off b => some ((fullWord off a.code 0 d.code 44 b).toNat, 4)
  | .ldgB8I d a off b => some ((fullWord off a.code 1 d.code 44 b).toNat, 4)
  | .ldgB16N d a off b => some ((fullWord off a.code 2 d.code 44 b).toNat, 4)
  | .ldgB16I d a off b => some ((fullWord off a.code 3 d.code 44 b).toNat, 4)
  | .ldgB32 d a off b => some ((fullWord off a.code 4 d.code 44 b).toNat, 4)
  | .ldgB64 d a off b => some ((fullWord off a.code 5 d.code 44 b).toNat, 4)
  | .ldgB128 d a off b => some ((fullWord off a.code 6 d.code 44 b).toNat, 4)
  | .stgB8 d a off b => some ((fullWord off a.code 0 d.code 45 b).toNat, 4)
  | .stgB16 d a off b => some ((fullWord off a.code 1 d.code 45 b).toNat, 4)
  | .stgB32 d a off b => some ((fullWord off a.code 2 d.code 45 b).toNat, 4)
  | .stgB64 d a off b => some ((fullWord off a.code 3 d.code 45 b).toNat, 4)
  | .stgB128 d a off b => some ((fullWord off a.code 4 d.code 45 b).toNat, 4)
  | .stgpB8 d a off b => some ((fullWord off a.code 0 d.code 46 b).toNat, 4)
  | .stgpB16 d a off b => some ((fullWord off a.code 1 d.code 46 b).toNat, 4)
  | .stgpB32 d a off b => some ((fullWord off a.code 2 d.code 46 b).toNat, 4)
  | .stgpB64 d a off b => some ((fullWord off a.code 3 d.code 46 b).toNat, 4)
  | .stgpB128 d a off b => some ((fullWord off a.code 4 d.code 46 b).toNat, 4)
  | .ldaB8N d a off b => some ((fullWord off a.code 0 d.code 47 b).toNat, 4)
  | .ldaB8I d a off b => some ((fullWord off a.code 1 d.code 47 b).toNat, 4)
  | .ldaB16N d a off b => some ((fullWord off a.code 2 d.code 47 b).toNat, 4)
  | .ldaB16I d a off b => some ((fullWord off a.code 3 d.code 47 b).toNat, 4)
  | .ldaB32 d a off b => some ((fullWord off a.code 4 d.code 47 b).toNat, 4)
  | .ldaB64 d a off b => some ((fullWord off a.code 5 d.code 47 b).toNat, 4)
  | .ldaB128 d a off b => some ((fullWord off a.code 6 d.code 47 b).toNat, 4)
  | .staB8 d a off b => some ((fullWord off a.code 0 d.code 48 b).toNat, 4)
  | .staB16 d a off b => some ((fullWord off a.code 1 d.code 48 b).toNat, 4)
  | .staB32 d a off b => some ((fullWord off a.code 2 d.code 48 b).toNat, 4)
  | .staB64 d a off b => some ((fullWord off a.code 3 d.code 48 b).toNat, 4)
  | .staB128 d a off b => some ((fullWord off a.code 4 d.code 48 b).toNat, 4)
  | .ldpB32 d a off b => some ((fullWord off a.code 0 d.code 49 b).toNat, 4)
  | .ldpB64 d a off b => some ((fullWord off a.code 1 d.code 49 b).toNat, 4)
  | .ldpB128 d a off b => some ((fullWord off a.code 2 d.code 49 b).toNat, 4)
  | .stpB32 d a off b => some ((fullWord off a.code 3 d.code 49 b).toNat, 4)
  | .stpB64 d a off b => some ((fullWord off a.code 4 d.code 49 b).toNat, 4)
  | .stpB128 d a off b => some ((fullWord off a.code 5 d.code 49 b).toNat, 4)
  | .pfgL1 a off b => some ((fullWord off a.code 0 0 50 b).toNat, 4)
  | .pfgL2 a off b => some ((fullWord off a.code 1 0 50 b).toNat, 4)
  | .ldc d a off b => some ((fullWord off a.code 2 d.code 50 b).toNat, 4)
  | .atomAdd d a c b => some ((fullWord c.code a.code 0 d.code 51 b).toNat, 4)
  | .atomMinI d a c b => some ((fullWord c.code a.code 1 d.code 51 b).toNat, 4)
  | .atomMaxI d a c b => some ((fullWord c.code a.code 2 d.code 51 b).toNat, 4)
  | .atomAnd d a c b => some ((fullWord c.code a.code 3 d.code 51 b).toNat, 4)
  | .atomOr d a c b => some ((fullWord c.code a.code 4 d.code 51 b).toNat, 4)
  | .atomXor d a c b => some ((fullWord c.code a.code 5 d.code 51 b).toNat, 4)
  | .atomXchg d a c b => some ((fullWord c.code a.code 6 d.code 51 b).toNat, 4)
  | .atomFaddF32 d a c b => some ((fullWord c.code a.code 7 d.code 51 b).toNat, 4)
  | .atomAddI64 d a c b => some ((fullWord c.code a.code 0 d.code 52 b).toNat, 4)
  | .atomMinI64 d a c b => some ((fullWord c.code a.code 1 d.code 52 b).toNat, 4)
  | .atomMaxI64 d a c b => some ((fullWord c.code a.code 2 d.code 52 b).toNat, 4)
  | .atomMinN64 d a c b => some ((fullWord c.code a.code 3 d.code 52 b).toNat, 4)
  | .atomMaxN64 d a c b => some ((fullWord c.code a.code 4 d.code 52 b).toNat, 4)
  | .atomXchg64 d a c b => some ((fullWord c.code a.code 5 d.code 52 b).toNat, 4)
  | .atomAddI128 d a c b => some ((fullWord c.code a.code 6 d.code 52 b).toNat, 4)
  | .atomFaddF64 d a c b => some ((fullWord c.code a.code 7 d.code 52 b).toNat, 4)
  | .cas32 d a c b => some ((fullWord c.code a.code 0 d.code 53 b).toNat, 4)
  | .cas64 d a c b => some ((fullWord c.code a.code 1 d.code 53 b).toNat, 4)
  | .cas128 d a c b => some ((fullWord c.code a.code 2 d.code 53 b).toNat, 4)
  | .bar b => some ((fullWord 0 0 0 0 54 b).toNat, 4)
  | .barm a b => some ((fullWord 0 a.code 1 0 54 b).toNat, 4)
  | .barrAddI64 d a b => some ((fullWord 0 a.code 0 d.code 55 b).toNat, 4)
  | .barrAddF32 d a b => some ((fullWord 0 a.code 1 d.code 55 b).toNat, 4)
  | .barrAddF64 d a b => some ((fullWord 0 a.code 2 d.code 55 b).toNat, 4)
  | .barrMinF32 d a b => some ((fullWord 0 a.code 3 d.code 55 b).toNat, 4)
  | .barrMaxF32 d a b => some ((fullWord 0 a.code 4 d.code 55 b).toNat, 4)
  | .barrMinI64 d a b => some ((fullWord 0 a.code 5 d.code 55 b).toNat, 4)
  | .barrMaxI64 d a b => some ((fullWord 0 a.code 6 d.code 55 b).toNat, 4)
  | .barrOrB32 d a b => some ((fullWord 0 a.code 7 d.code 55 b).toNat, 4)
  | .fenceC b => some ((fullWord 0 0 0 0 56 b).toNat, 4)
  | .fenceT b => some ((fullWord 0 0 1 0 56 b).toNat, 4)
  | .fenceD b => some ((fullWord 0 0 2 0 56 b).toNat, 4)
  | .fenceK b => some ((fullWord 0 0 3 0 56 b).toNat, 4)
  | .fenceX b => some ((fullWord 0 0 4 0 56 b).toNat, 4)
  | .txb b => some ((fullWord 0 0 0 0 57 b).toNat, 4)
  | .txe b => some ((fullWord 0 0 1 0 57 b).toNat, 4)
  | .txa a b => some ((fullWord 0 a.code 2 0 57 b).toNat, 4)
  | .txs d b => some ((fullWord 0 0 3 (fld7 d) 57 b).toNat, 4)
  | .bcpG2a a t b => some ((fullWord 0 (fld7 a) 0 (fld7 t) 58 b).toNat, 4)
  | .bcpG2ax a t b => some ((fullWord 0 (fld7 a) 1 (fld7 t) 58 b).toNat, 4)
  | .bcpG2rx a t b => some ((fullWord 0 (fld7 a) 2 (fld7 t) 58 b).toNat, 4)
  | .bcpA2g a t b => some ((fullWord 0 (fld7 a) 3 (fld7 t) 58 b).toNat, 4)
  | .bcpQ2g a t b => some ((fullWord 0 (fld7 a) 4 (fld7 t) 58 b).toNat, 4)
  | .bcpG2g a t b => some ((fullWord 0 (fld7 a) 5 (fld7 t) 58 b).toNat, 4)
  | .bcpRem a t b => some ((fullWord 0 (fld7 a) 6 (fld7 t) 58 b).toNat, 4)
  | .bcpScld a t b => some ((fullWord 0 (fld7 a) 7 (fld7 t) 58 b).toNat, 4)
  | .twait a b => some ((fullWord 0 (fld7 a) 0 0 59 b).toNat, 4)
  | .twany a b => some ((fullWord 0 (fld7 a) 1 0 59 b).toNat, 4)
  | .tfirst d a b => some ((fullWord 0 (fld7 a) 2 (fld7 d) 59 b).toNat, 4)
  | .tclr a b => some ((fullWord 0 (fld7 a) 3 0 59 b).toNat, 4)
  | .tstat d t b => some ((fullWord (fld7 t) 0 4 (fld7 d) 59 b).toNat, 4)
  | .mmodeC b => some ((fullWord 0 0 0 0 60 b).toNat, 4)
  | .mmodeS b => some ((fullWord 0 0 1 0 60 b).toNat, 4)
  | .mcal b => some ((fullWord 0 0 2 0 60 b).toNat, 4)
  | .mmulEx acc a c b => some ((fullWord (fld7 c) (fld7 a) 0 (bif acc then 1 else 0) 61 b).toNat, 4)
  | .mmulAp1 acc a c b => some ((fullWord (fld7 c) (fld7 a) 1 (bif acc then 1 else 0) 61 b).toNat, 4)
  | .mmulAp2 acc a c b => some ((fullWord (fld7 c) (fld7 a) 2 (bif acc then 1 else 0) 61 b).toNat, 4)
  | .mmulAp4 acc a c b => some ((fullWord (fld7 c) (fld7 a) 3 (bif acc then 1 else 0) 61 b).toNat, 4)
  | .mzero a b => some ((fullWord 0 (fld7 a) 0 0 62 b).toNat, 4)
  | .mrd d a b => some ((fullWord 0 (fld7 a) 1 d.code 62 b).toNat, 4)
  | .mwr d a b => some ((fullWord 0 (fld7 a) 2 d.code 62 b).toNat, 4)
  | .mdrain a t b => some ((fullWord 0 (fld7 a) 3 (fld7 t) 62 b).toNat, 4)
  | .mdrainAddF32 a t b => some ((fullWord 0 (fld7 a) 4 (fld7 t) 62 b).toNat, 4)
  | .mdrainAddI32 a t b => some ((fullWord 0 (fld7 a) 5 (fld7 t) 62 b).toNat, 4)
  | .mdrainAddI64 a t b => some ((fullWord 0 (fld7 a) 6 (fld7 t) 62 b).toNat, 4)
  | .trap n b => some ((fullWord n 0 0 0 63 b).toNat, 4)
  | .brk n b => some ((fullWord n 0 1 0 63 b).toNat, 4)
  | .eret b => some ((fullWord 0 0 2 0 63 b).toNat, 4)
  | .srd d sr b => some ((fullWord sr.code 0 3 d.code 63 b).toNat, 4)
  | .swr dst b => some ((fullWord dst.numCode dst.srcCode 4 0 63 b).toNat, 4)
  | .srds d sr b => some ((fullWord sr.code 0 5 (fld7 d) 63 b).toNat, 4)
  | .mov16 d c b => some ((halfWord 1 (BitVec.ofNat 5 d.val) (BitVec.ofNat 5 c.val) b).toNat, 2)
  | .add16 d c b => some ((halfWord 2 (BitVec.ofNat 5 d.val) (BitVec.ofNat 5 c.val) b).toNat, 2)
  | .sub16 d c b => some ((halfWord 3 (BitVec.ofNat 5 d.val) (BitVec.ofNat 5 c.val) b).toNat, 2)
  | .and16 d c b => some ((halfWord 4 (BitVec.ofNat 5 d.val) (BitVec.ofNat 5 c.val) b).toNat, 2)
  | .or16 d c b => some ((halfWord 5 (BitVec.ofNat 5 d.val) (BitVec.ofNat 5 c.val) b).toNat, 2)
  | .xor16 d c b => some ((halfWord 6 (BitVec.ofNat 5 d.val) (BitVec.ofNat 5 c.val) b).toNat, 2)
  | .shl16 d c b => some ((halfWord 7 (BitVec.ofNat 5 d.val) (BitVec.ofNat 5 c.val) b).toNat, 2)
  | .shr16 d c b => some ((halfWord 8 (BitVec.ofNat 5 d.val) (BitVec.ofNat 5 c.val) b).toNat, 2)
  | .addi16 d imm b => some ((halfWord 9 (BitVec.ofNat 5 d.val) imm b).toNat, 2)
  | .mul16 d c b => some ((halfWord 10 (BitVec.ofNat 5 d.val) (BitVec.ofNat 5 c.val) b).toNat, 2)
  | .fadd16 d c b => some ((halfWord 11 (BitVec.ofNat 5 d.val) (BitVec.ofNat 5 c.val) b).toNat, 2)
  | .fsub16 d c b => some ((halfWord 12 (BitVec.ofNat 5 d.val) (BitVec.ofNat 5 c.val) b).toNat, 2)
  | .fmul16 d c b => some ((halfWord 13 (BitVec.ofNat 5 d.val) (BitVec.ofNat 5 c.val) b).toNat, 2)
  | .fmax16 d c b => some ((halfWord 14 (BitVec.ofNat 5 d.val) (BitVec.ofNat 5 c.val) b).toNat, 2)
  | .fmin16 d c b => some ((halfWord 15 (BitVec.ofNat 5 d.val) (BitVec.ofNat 5 c.val) b).toNat, 2)
  | .slotPick _ _ _ => none
  | .runLimit _ => none
  | .resultReturn _ _ => none
  | .trapDelivery _ => none
  | .joinwWake _ => none
  | .waitwWake _ => none
  | .warpCommit _ => none
  | .rollback _ => none
  | .cautiousModeEnd _ => none
  | .postedStorePublish _ _ => none
  | .forcedPublish _ _ => none
  | .serialPermitGrant => none
  | .copyComplete _ => none
  | .mmulStart _ _ => none
  | .arrayStep _ _ _ => none
  | .mmulComplete _ _ => none
  | .mmodeCModePoint _ _ => none
  | .mmodeCUnpark _ _ => none
  | .mmodeSVerify _ _ => none
  | .mcalComplete _ _ _ => none
  | .qpush _ _ => none
  | .quantumWrite _ _ => none
  | .qstatClearOvf _ _ => none
  | .registerWrite _ _ => none
  | .gridQuery _ => none
  | .gridDrain _ => none
  | .gridResume _ => none
  | .gridKill _ => none
  | .warpKillStop _ => none
  | .admission _ => none
  | .waitWordNotify _ => none
  | .teamSelect => none
  | .teamPlacement _ => none
  | .twinBackoffExpiry _ => none
  | .teamRetire _ _ => none
  | .doneWordAdd _ => none
  | .partialWarpTimeout _ _ _ => none
  | .joinwDueDelay _ _ _ => none
  | .cooperRelease _ _ => none
  | .ringSpill _ _ => none
  | .ringRefill _ _ _ => none
  | .warpYield _ _ => none
  | .warpRestore _ => none
  | .pageWalk _ _ _ _ _ => none
  | .faultRecordEnter => none
  | .fresResolved _ _ => none
  | .fresUnresolvable _ _ => none
  | .fresBackingFailed _ _ => none
  | .shootdownPage _ _ => none
  | .shootdownAsid _ => none
  | .shootdownAll => none
  | .shootdownComplete => none
  | .migrationCommandTake => none
  | .migrationComplete _ _ => none
  | .rds _ _ => none
  | .wrp _ => none
  | .atm _ _ _ _ _ => none
  | .own _ _ => none
  | .wrf _ _ => none
  | .addl _ _ => none
  | .txlk _ _ _ => none
  | .txwr _ _ _ => none
  | .wbd _ _ _ => none
  | .eve _ _ => none
  | .ownh _ _ => none
  | .snpinv _ _ => none
  | .snpinvd _ _ => none
  | .snpfwd _ _ _ => none
  | .snppass _ _ => none
  | .recall _ => none
  | .cmp _ => none
  | .ack _ _ => none
  | .cmpack _ _ => none
  | .retry _ _ => none
  | .rtygnt _ _ => none
  | .data _ _ _ => none
  | .linkReplay _ _ => none
  | .linkRetrain _ _ _ => none
  | .hostReadHalf _ _ => none
  | .hostExclusiveHalf _ _ => none
  | .hostWritebackHalf _ _ _ => none
  | .hostBiResponse _ _ _ _ => none
  | .hostBiTimeout _ => none
  | .putData _ => none
  | .getRequest _ => none
  | .getData _ => none
  | .addData _ => none
  | .remAcknowledgement _ => none
  | .remRetransmit _ => none
  | .remTransferFail _ _ => none
  | .errorRecordFlush _ => none
  | .correctableRecord _ _ _ => none
  | .temperatureBandExit _ _ _ => none
  | .powerOnBoot => none
  | .firmwareUpdate _ => none
  | .managementReset => none
  | .getVersion _ => none
  | .getCapabilities _ => none
  | .negotiateAlgorithms _ => none
  | .getDigests _ => none
  | .getCertificate _ => none
  | .challenge _ => none
  | .getMeasurements _ => none
  | .keyExchange _ => none
  | .finish _ => none
  | .pstateSet _ => none
  | .pstateChangeDone => none
  | .pstatClear _ => none
  | .plimitWrite _ => none
  | .powerLimitThrottle _ _ => none
  | .currentClamp _ => none
  | .thermalTrip => none
  | .illegalInstruction _ => none
  | .instructionFetchFault => none
  | .softError _ _ => none
  | .mainRailsOff => none

/-- The bytes of an instruction as the hardware stores them (R51). -/
def encodeBytes (i : Instr) : Option (List Byte) :=
  (encodeNat i).map fun (w, n) => leBytes w n

end

end Sys2Proof
end

