-- ==== Sys2Proof/Machine/State.lean ====
section
/-! DEFINITION. The state of one Onapizin package (R13 and the chapters on the hardware), the reasons a step can stop, and
the state after reset. Everything is plain data. Fields that are the model's own and not the spec's say so. -/
namespace Sys2Proof.Machine

open Sys2Proof

/-- Reasons the machine stops with a fault: there is none. What goes wrong is an exception, a status or a record of the machine's own, and
an instruction that no warp can issue has no effect. -/
inductive Fault
deriving DecidableEq, Repr

/-- Reasons the model gives an instruction no meaning. -/
inductive Refusal where
  /-- Raised by `Sys2Proof.Machine.exec` for an instruction without a meaning in the model yet. Safe. -/
  | notModelled (mnemonic : String)
deriving DecidableEq, Repr

/-! ## Lanes -/

/-- Life of a lane of a warp (R171). -/
inductive Life where
  | never | live | exited
deriving DecidableEq, Repr

/-- txst STATE (R221). -/
inductive TxState where
  | idle | active | committed | aborted
deriving DecidableEq, Repr

/-- What `txb` records of a lane (R220). -/
structure LaneSave where
  regs : List Word
  preds : BitVec 7
  xr : List (BitVec 16)
  fflags : BitVec 5
  stack : List DWord
  win : List Host.Cell
  winPoison : List Nat
  pri : BitVec 3
  /-- Register words with an uncorrectable or a correctable error, and poisoned entries of the return stack: errors that an abort brings
  back with the words (R306, R308). -/
  badRegs : List Nat
  softRegs : List Nat
  stackPoison : List Nat
deriving DecidableEq, Repr

/-- Transaction state of a lane (R219 to R227). -/
structure Tx where
  state : TxState
  /-- CAUSE, 0 to 9 (R221). -/
  cause : Nat
  code : Byte
  sl : Bool
  /-- ABORTS, saturating at 7 (R221). -/
  aborts : Nat
  cn : Bool
  /-- Address of the `txb` that opened the last attempt (R220). -/
  addr : DWord
  save : Option LaneSave
  /-- Bytes read, by physical address, with the value read (R223, R225). -/
  rset : List Host.Cell
  /-- Bytes stored, in issue order (R223). -/
  wset : List Host.Cell
  rlines : List Nat
  wlines : List Nat
  /-- Pages of the address space through which both sets were reached (R396). -/
  pages : List Nat
  /-- Registers written since the `txb`: an abort rewrites them (R220, R346). -/
  logged : List Nat
  /-- Instructions issued from the `txb` (R227). -/
  insns : Nat
  /-- Contention count (R227). -/
  contention : Nat
  /-- Lines the previous attempt touched (R227 step 3). -/
  lastLines : List Nat
  /-- The attempt runs in cautious serial mode and holds the permit (R227). -/
  serial : Bool
deriving DecidableEq, Repr

/-- A lane of a warp: one thread (R13). -/
structure Lane where
  life : Life
  /-- v0 to v(n-1). -/
  regs : List Word
  /-- Register-file words with an uncorrectable error (R306). -/
  badRegs : List Nat
  /-- Register-file words with a correctable error, not read since (R306). -/
  softRegs : List Nat
  /-- p0 to p6. -/
  preds : BitVec 7
  /-- x0, x1, x2. -/
  xr : List (BitVec 16)
  /-- NV DZ OF UF NX in bits 4 to 0 (R24). -/
  fflags : BitVec 5
  tx : Tx
  gtid : DWord
  sid : DWord
  lastsid : DWord
  /-- Team index of the thread (R21). -/
  team : Word
  ordinal : DWord
  /-- Join-counter address of the spawn record, of a spawned lane (R179). -/
  join : Option DWord
  /-- Return stack, newest first; `rsp` is its length (R25, R26). -/
  stack : List DWord
  /-- Entries of the return stack that are poisoned, counted from the oldest (R441). -/
  stackPoison : List Nat
  /-- Bytes of the private window written since the thread started (R200). -/
  win : List Host.Cell
  winPoison : List Nat
  /-- MODEL: names the undefined first contents of the window (R13, DESIGN CHOICE, log entry 5). -/
  winSeed : Nat
deriving DecidableEq, Repr

/-! ## Warps -/

/-- Why an entry of the frontier is parked. -/
inductive Park where
  /-- Selectable. -/
  | no
  /-- Unparked; selectable from the warp's next run (R55). -/
  | nextRun
  /-- Waits for the resolution of a fault on a page of an address space (R42): the page, the faulting address of its
  lowest lane, whether the fault met an instruction fetch, and whether it is a migration's (R401). -/
  | page (page asid : Nat) (addr : DWord) (fetch mig : Bool)
  /-- Arrived at a team barrier by BAR or BARR (R212). -/
  | bar
  /-- Arrived at the warp's BARM (R216). -/
  | barm
  /-- Arrived at MMODE.C, MMODE.S or MCAL (R245). -/
  | mode
  /-- Waits at a `txb` for its turn in cautious serial mode (R227). -/
  | serial
  /-- Waits at its instruction for a line that the serial attempt of another lane of the warp holds (R227; DEDUCED, log entry 62). -/
  | lock
deriving DecidableEq, Repr

/-- An entry of the frontier (R36). -/
structure FEntry where
  pc : DWord
  pri : BitVec 3
  mask : Mask
  park : Park
  /-- Lanes for which FRES answered a fault as unresolvable: PFAIL with this DETAIL and ADDR at the entry's next selection (R273). -/
  pfail : List (Mask × Nat × DWord)
  /-- Its word in the spill area of the warp has an uncorrectable error (R308). -/
  bad : Bool := false
deriving DecidableEq, Repr

/-- A trap kept until its delivery (R264, R265). -/
structure HeldTrap where
  /-- Code of R263. -/
  cause : Nat
  detail : Nat
  addr : DWord
  mask : Mask
  pc : DWord
  pri : BitVec 3
  insn : Word
  len : Nat
  /-- Raised in handler mode: a double trap (R269). -/
  double : Bool
  /-- Of an MCHECK of poisoned memory, the physical address of the granule that its lowest lane met; else 0 (R446). -/
  phys : Nat := 0
deriving DecidableEq, Repr

/-- State of a tag (R229, R230). -/
inductive TagSt where
  | free
  | busy
  /-- With the number of the copy or MMUL that completed it. -/
  | done (status : Nat) (bytes : Word) (op : Nat)
deriving DecidableEq, Repr

/-- Where a plain store goes: global memory by physical address, or array memory of a core by byte of its 40 macros. -/
inductive Space where
  | global
  | array (die core : Nat)
deriving DecidableEq, Repr

/-- The items of a spawn record (R366). -/
structure SpawnRec where
  gk : Nat
  entry : Nat
  team : Nat
  sid : DWord
  root : DWord
  join : Option DWord
  payload : List Word
deriving DecidableEq, Repr

/-- What a lane has issued and not performed: the bytes of a plain or posted store, or a spawn with the predicate it sets, whose record
is offered and whose join counter grows at its place (R184, R189). -/
structure StoreRec where
  lane : Nat
  space : Space
  addr : Nat
  bytes : List Byte
  posted : Bool
  /-- Instructions of the window before it (R333). -/
  seq : Nat
  spawn : Option (SpawnRec × PReg) := none
  /-- Tick at which its instruction issued: what the lanes of one instruction store in one line goes together (R409). -/
  time : Nat := 0
deriving DecidableEq, Repr

/-- Where a load that has not performed puts its value: registers from one of them on, sign-extended or not, or the predicate
that JOINT sets where it is zero (R186, R194). -/
inductive LoadDst where
  | regs (k : Nat) (signed : Bool)
  | zero (p : PReg)
deriving DecidableEq, Repr

/-- A plain load of global memory that has issued and whose data has not returned (R331): bytes of one lane. -/
structure LoadRec where
  lane : Nat
  addr : Nat
  n : Nat
  dst : LoadDst
  /-- Issued in the window, at this place of it (R333). -/
  spec : Bool
  seq : Nat
deriving DecidableEq, Repr

/-- An item of the shadow log (R334). -/
inductive LogItem where
  | reg (n : Nat) | sreg (n : Nat) | preds | xregs | flags
deriving DecidableEq, Repr

/-- An entry of the shadow log; the old values stand in the window's `save` (R334). -/
structure LogEntry where
  item : LogItem
  seq : Nat
  /-- An uncorrectable error struck the entry (R341). -/
  bad : Bool
deriving DecidableEq, Repr

/-- What a rollback restores (R335, R340): the values before the first write of each item after the shadow point. -/
structure Save where
  front : List FEntry
  lanes : List Lane
  sregs : List Word
  wmode : Word
  tags : List TagSt
  pend : List Nat
  heldTraps : List HeldTrap
  /-- Address of the selected entry: the shadow point. -/
  pc : DWord
  seq : Nat
deriving DecidableEq, Repr

/-- A watched line, the last instruction of the window that read it, and the lanes that did (R337). -/
structure Watch where
  line : Nat
  seq : Nat
  lanes : Mask
  /-- Pages of the address space through which it was read (R396). -/
  pages : List Nat
deriving DecidableEq, Repr

/-- A warp's window of speculation (R332 to R337). -/
structure Window where
  save : Save
  /-- Loads issued while an earlier access of the window had not performed: later shadow points (R333). -/
  points : List Save
  log : List LogEntry
  /-- Stores and spawns of the window, in program order (R184, R336). -/
  buf : List StoreRec
  /-- Entries of the speculative store buffer: instruction of the window and how many (R336). -/
  ents : List (Nat × Nat)
  /-- Watched lines of the window (R337). -/
  watch : List Watch
  /-- Numbers of pending copies, with their place in the window (R256). -/
  copies : List (Nat × Nat)
  /-- Instructions issued in the window. -/
  seq : Nat
  /-- A trap raised in the window is held; the warp issues nothing further (R265). -/
  trapped : Bool
deriving DecidableEq, Repr

/-- What a whole warp is parked for (R45). -/
inductive Wait where
  /-- JOINW: lanes and the addresses of their words (R185). -/
  | joinw (ws : List (Nat × DWord)) (since : Nat)
  /-- WAITW: lanes, addresses and thresholds (R187). -/
  | waitw (ws : List (Nat × DWord × Word))
  /-- TWAIT (R232). -/
  | twait (mask : Mask)
  /-- TWANY (R232). -/
  | twany (mask : Mask)
deriving DecidableEq, Repr

/-- An instance of BARM (R216). -/
structure Barm where
  ref : Option Mask
  arrived : Mask
deriving DecidableEq, Repr

/-- A warp (R13, R30, R36 to R48). -/
structure Warp where
  /-- MODEL: the number of the warp, never used twice. -/
  uid : Nat
  die : Nat
  core : Nat
  ctx : Nat
  /-- Number of the grid's launch record. -/
  gk : Nat
  /-- Gathered by the Cooper (R34, R370). -/
  gathered : Bool
  /-- The warp register (R21). -/
  index : Word
  /-- wwid: 16, 32 or 64. -/
  width : Nat
  /-- Lane registers per thread (R15). -/
  alloc : Nat
  lanes : List Lane
  sregs : List Word
  wmode : Word
  tcause : Word
  tepc : DWord
  tmask : DWord
  trec : DWord
  tscratch : DWord
  tags : List TagSt
  front : List FEntry
  /-- In handler mode (R268). -/
  handler : Bool
  /-- Entries held by the handler (R268 step 3). -/
  held : List FEntry
  heldTraps : List HeldTrap
  /-- A run is in progress in its slot (R46). -/
  inRun : Bool
  /-- Instructions of the run so far (R45). -/
  count : Nat
  /-- Registers with an outstanding result: n, 0x80 + n, 0xC0 + n for vn, sn, pn (R48, R263). -/
  pend : List Nat
  wait : Option Wait
  barm : Option Barm
  window : Option Window
  /-- Stores and spawns issued and not yet performed, oldest first: a rollback leaves them (R184, R331). -/
  sent : List StoreRec
  /-- The home has applied the last store sent and its completion has not come back (R406). -/
  cmpWait : Bool
  /-- Plain loads issued and not yet performed, oldest first (R331). -/
  loads : List LoadRec
  /-- Flags that come with a result not yet returned: the register's number, the lane and the flags (R204). -/
  lateFlags : List (Nat × Nat × BitVec 5)
  /-- The line at whose home the issuing instruction waits (R410, R414). -/
  waitsOn : Option Nat
  /-- Lanes whose `txe` has begun and has not committed them (R225). -/
  atTxe : Mask
  rbAddr : DWord
  rbCount : Nat
  /-- Cautious mode: 65 down to 2 while 64 to 1 of its instructions are left, 1 once it is over, 0 outside it (R344). -/
  cautious : Nat
  /-- Shadow-log entries of the lanes that are ACTIVE (R346). -/
  txLog : Nat
  /-- Store-buffer entries of the lanes that are ACTIVE (R346). -/
  txBuf : Nat
  /-- Cycle of the most recent issue; none before the first (R300). -/
  lastIssue : Option Nat
  bankBase : Nat
  /-- First word of its range in each of its banks (R307). -/
  bankWord : Nat
  /-- Written to its save slot (R374). -/
  yielded : Bool
  /-- MODEL: names the bytes written to its save slot (R373, DESIGN CHOICE, log entry 15). -/
  slotSeed : Nat
  /-- Its yield was cancelled: it yields no more while it stays parked (R375). -/
  noYield : Bool
  /-- Stops at the end of its run (R275). -/
  kill : Bool
  /-- An uncorrectable error struck state of the warp that R441 lists as failing its team (R341, R443). -/
  failing : Bool
  /-- A team of its lanes fails and cannot end yet: nothing of the warp issues until it has (R271, R444). -/
  stopped : Bool
  /-- It yields: its bytes go to its save slot, though the words that it waits for have been read as zero meanwhile (R379). -/
  yielding : Bool
deriving DecidableEq, Repr

/-! ## Matrix memories, copies and matrix operations -/

/-- A memory of undefined first contents with poison per granule. -/
structure Ram where
  /-- Bytes written, by address. -/
  cells : List Host.Cell
  /-- MODEL: names the undefined contents (DESIGN CHOICE, log entry 5). -/
  seed : Nat
  poison : List Nat
deriving DecidableEq, Repr

/-- Residence of a macro (R325). -/
inductive Resid where
  | freed | storage | compute
deriving DecidableEq, Repr

/-- One of the 40 macros of a core (R310 to R313, R325 to R328). -/
structure CimUnit where
  mode : Resid
  /-- The team whose allocation holds it: grid number and team index. -/
  owner : Option (Nat × Nat)
  /-- MODEL: names the undefined contents (DESIGN CHOICE, log entry 5). -/
  seed : Nat
  /-- Granules that the scrub recorded as poisoned, by byte of the macro (R327). -/
  scrubbed : List Nat
  /-- Granules in which an LDA found a correctable error in residence (R328). -/
  ldaErr : List Nat
  /-- Granules with a correctable error (R326, R328). -/
  soft : List Nat
  /-- MMULs of the residence that read it: warp and number (R247). -/
  readers : List (Nat × Nat)
deriving DecidableEq, Repr

/-- What a copy engine carries: the BCP functions and the MDRAIN forms (R235, R253). -/
inductive CopyFn where
  | g2a | g2ax | g2rx | a2g | q2g | g2g | rem | scld
  | drain | drainAddF32 | drainAddI32 | drainAddI64
deriving DecidableEq, Repr

/-- A copy in flight (R231, R255). -/
structure Copy where
  uid : Nat
  die : Nat
  core : Nat
  /-- Issuing warp and tag. -/
  w : Nat
  tag : Nat
  /-- Team it acts for (R243). -/
  gk : Nat
  team : Nat
  fn : CopyFn
  /-- c0 to c3 (R233). -/
  cb : List Word
  /-- Issued while speculative: it does not start before the warp's earlier accesses have performed (R256, R288). -/
  pending : Bool
  /-- Pending, and its warp has committed: it has had its issue point (R256). -/
  issued : Bool := false
  /-- Its array destination was in compute residence, or about to be, when it issued: it completes ARRMODE (R246, R291). -/
  refused : Bool
  /-- Destination lines owned (R390). -/
  owned : List Nat
  /-- Steps of its row order whose bytes it has read for good, and BYTES of those. -/
  taken : Nat
  bytes : Nat
  /-- Bytes of those steps that are not written yet, by physical address. -/
  out : List Host.Cell
  /-- The answer of FRES to its fault: unresolvable (R395). -/
  failed : Bool
  /-- It waits for the fault on this page (R255). -/
  waits : Option Nat
  /-- REM: lines confirmed, or done by one that is looped back, and the transfer's failure (R440). -/
  confirmed : Nat
  remote : Option RemCause
deriving DecidableEq, Repr

/-- An MMUL in the matrix queue or running (R249, R251). -/
structure MOp where
  uid : Nat
  w : Nat
  tag : Nat
  gk : Nat
  team : Nat
  /-- 0 EX, 1 AP1, 2 AP2, 4 AP4. -/
  rep : Nat
  acc : Bool
  n0 : Nat
  seg0 : Nat
  rbase : Nat
  ma0 : Nat
  mc0 : Nat
  m : Nat
  kb : Nat
  n : Nat
  bfmt : Nat
  afmt : Nat
  /-- Output row and plane of the next step (R316): steps made so far. -/
  steps : Nat
  /-- Witness repetitions so far (R321). -/
  retries : Nat
  /-- Failed conversions: output row, core and macro as 40 c + p with c 1 for a follower core, segment of the array (R319). -/
  fails : List (Nat × Nat × Nat)
  /-- Poison was met in an element written (R252). -/
  pois : Bool
deriving DecidableEq, Repr

/-- An open partial warp of the Cooper (R368). -/
structure Partial where
  gk : Nat
  entry : Nat
  /-- The record of each lane, as far as one was assigned; none where its record was discarded. -/
  recs : List (Option SpawnRec)
  /-- Cycle at which lane 0 was first assigned. -/
  t0 : Nat
  /-- Cycle of the first assignment of lane 0 at which a warp of that lane's team was parked in JOINW (R369). -/
  join0 : Option Nat
  /-- Cycle at which it became due (R369). -/
  due : Option Nat
deriving DecidableEq, Repr

/-- The Cooper of a core (R367 to R372). -/
structure Cooper where
  /-- Records not assigned to a partial warp, in acceptance order. -/
  store : List SpawnRec
  /-- Open partial warps, at most 8, in opening order. -/
  parts : List Partial
  /-- A spill is in progress (R371). -/
  spilling : Bool
  /-- Grid of the ring it pulled from last (R371). -/
  lastRing : Nat
  /-- Address space and page of its accesses that FRES answered unresolvable (R373, R375). -/
  answers : List (Nat × Nat)
deriving DecidableEq, Repr

/-- A line in an L1 data cache (R383): VP when `sole`, else VS. -/
structure L1Line where
  line : Nat
  sole : Bool
deriving DecidableEq, Repr

/-- A line of the L1 instruction cache: its bytes when it was filled, and its granules, PA divided by 8, that were poisoned then
(R386, R441). -/
structure CodeLine where
  line : Nat
  bytes : List Byte
  bad : List Nat
deriving DecidableEq, Repr

/-- A TLB entry (R391). `big` for a 512 MiB page. -/
structure TlbEntry where
  asid : Nat
  page : Nat
  big : Bool
  frame : Nat
  r : Bool
  w : Bool
  x : Bool
  io : Bool
deriving DecidableEq, Repr

/-- A core (R298, R304, R307). -/
structure Core where
  /-- Cycle of its die at which it was last powered (R21). -/
  powered : Nat
  /-- The run in progress of each slot, by warp number (R301). -/
  slots : List (Option Nat)
  /-- Bytes of the 40 macros that have been written, at 12,288 p + offset (R315). -/
  array : List Host.Cell
  arrPoison : List Nat
  units : List CimUnit
  rowBuf : Ram
  acc : Ram
  /-- Scale memory with its staging area (R242). -/
  scale : Ram
  /-- Its matrix team: grid number and team index (R29). -/
  mat : Option (Nat × Nat)
  copies : List Copy
  /-- Matrix queue, oldest first (R244). -/
  mq : List MOp
  /-- MMUL in progress (R321). -/
  run : Option MOp
  cooper : Cooper
  /-- L1 data cache, most recently used first (R383, R385). -/
  l1 : List L1Line
  /-- L1 instruction cache, most recently filled first (R386). -/
  icache : List CodeLine
  /-- L1 TLB, most recently used first (R391). -/
  tlb : List TlbEntry
  /-- Counters 0 to 16 (R348). -/
  perf : List DWord
  /-- Junction temperature, and that of the last calibration, in 1/16 °C (R324). -/
  temp : Int
  calTemp : Int
  /-- Reported outside its band since the last calibration (R324). -/
  bandOut : Bool
deriving DecidableEq, Repr

/-! ## Dies and lines -/

/-- A record of the error queue (R445), without its reserved fields. -/
structure ErrRec where
  kind : Nat
  code : Nat
  die : Nat
  core : Nat
  grid : Word
  team : Word
  unit : Word
  addr : DWord
  time : DWord
  data : List Byte
deriving DecidableEq, Repr

/-- A slot of a spill ring that holds a record. -/
structure RingSlot where
  rcd : SpawnRec
  /-- How many records were written to the ring before it. -/
  pos : Nat
  /-- MODEL: names the bytes written to the slot, in a format that is not architectural (R373, DESIGN CHOICE, log entry 15). -/
  seed : Nat
deriving DecidableEq, Repr

/-- The spill ring of a grid on a die (R371): the slots that hold records, oldest first, and how many records it has taken. -/
structure Ring where
  gk : Nat
  tail : Nat
  slots : List RingSlot
deriving DecidableEq, Repr

/-- A request waiting at the home for a line (R410). -/
inductive HomeReq where
  /-- A holder's request for a read copy. -/
  | rds (h : Holder)
  /-- The bridge's request for ownership, for a half. -/
  | ownh (half : Nat)
  /-- A host's request for a clean copy of a half, which the bridge makes as an RdS (R421). -/
  | rdh (half : Nat)
  /-- A copy's request for engine ownership (R390). -/
  | own (copy : Nat)
  /-- An add-on-store line of a copy (R254, R389). -/
  | addl (copy : Nat)
  /-- The access at which a warp waits (R414); it lapses when the warp waits elsewhere. -/
  | acc (w : Nat)
  /-- A store of an agent that is no thread. -/
  | wrp (a : Agent) (pa : Nat) (bytes : List Byte)
  /-- An atomic of a holder. -/
  | atm (h : Holder) (k : AtomKind) (pa : Nat) (x y : QWord)
deriving DecidableEq, Repr

/-- The retry list of a home slice: requests refused for want of a tracker, with their lines, in order (R418). -/
structure Slice where
  slice : Nat
  retry : List (Nat × HomeReq)
deriving DecidableEq, Repr

/-- What a warp holds of its core: context, register units, bank base, width, first word and words in each bank (R298, R304, R307). -/
structure Seat where
  ctx : Nat
  units : Nat
  base : Nat
  width : Nat
  start : Nat
  words : Nat
deriving DecidableEq, Repr

/-- A reservation of a twin team: its pair, and what it holds of the leader core (R361). -/
structure Resv where
  pair : Nat
  seats : List Seat
deriving DecidableEq, Repr

/-- A C-die. -/
structure Die where
  /-- Cycles of its arithmetic clock, and ticks of 1/18 ns towards the next one (R10). -/
  cycles : Nat
  rest : Nat
  /-- P-state 0 to 2 (R457), and the state to which it is changing. -/
  pstate : Nat
  pnext : Option Nat
  l2tlb : List TlbEntry
  /-- Spill rings, and the grids whose ring is unusable (R371, R373). -/
  rings : List Ring
  deadRings : List Nat
  /-- Grids whose ring has a head slot that cannot be read (R373). -/
  blindRings : List Nat
  /-- Twin reservation (R361). -/
  resv : Option Resv
  /-- Back-off in cycles, and consecutive conflicts (R361). -/
  backoff : Nat
  conflicts : Nat
  waitBack : Bool
  /-- Pair onto which Cooper releases are stopped (R361). -/
  stopPair : Option Nat
  /-- Records awaiting space in the error queue (R444). -/
  heldErr : List ErrRec
  slices : List Slice
deriving DecidableEq, Repr

/-- Fabric state of a line in a holder (R404). -/
inductive Fab where
  | m | o | e | s | i
deriving DecidableEq, Repr

/-- State of a 64-byte half held by a host (R421). -/
inductive Half where
  | hi | hs | hm
deriving DecidableEq, Repr

/-- A narrow-scope record of a line (R287): a thread's store in it follows the thread's fence of scope c, t or d (0 to 2), before
which the thread issued posted stores, the last of them numbered `upto`. -/
structure Narrow where
  w : Nat
  lane : Nat
  die : Nat
  core : Nat
  gk : Nat
  team : Nat
  scope : Nat
  upto : Nat
deriving DecidableEq, Repr

/-- What the home, the L2s and the bridge keep of a line (R387, R404, R407, R410, R421). -/
structure LineRec where
  line : Nat
  /-- Fabric states of C-dies 0 to 3 and H. -/
  st : List Fab
  /-- Snoop-filter presence vector, and the order of its last use (R407, R408). -/
  present : BitVec 5
  lru : Nat
  /-- Order of the last use in the L2 of each die (R388). -/
  use : List Nat
  /-- Sharer vector and sole holder per die (R387). -/
  sharers : List (BitVec 12)
  sole : List (Option Nat)
  /-- Owning engine's copy (R390). -/
  engine : Option Nat
  /-- An access waits for the line, and the owning engine has been told to write it next (R414). -/
  recalled : Bool
  /-- Narrow-scope records (R287). -/
  narrow : List Narrow
  /-- Requester whose CmpAck ends the operation in progress (R410). -/
  busy : Option Holder
  /-- Requests in arrival order (R410). -/
  queue : List HomeReq
  /-- Holders whose snoop acknowledgement is awaited (R417). -/
  acks : List Holder
  /-- Transaction lock: warp and lane (R415). -/
  lock : Option (Nat × Nat)
  halves : List Half
  /-- Back-invalidate snoop of each half that the host has not answered: whether for a write, and the tick at which it was sent
  (R422). -/
  asked : List (Option (Bool × Nat))
  /-- Holders whose write-back of the line stands in their write-back buffer, not accepted yet (R413). -/
  wb : List Holder
deriving DecidableEq, Repr

/-- A posted store between its issue and its package point (R283). -/
structure Posted where
  uid : Nat
  w : Nat
  lane : Nat
  die : Nat
  core : Nat
  gk : Nat
  team : Nat
  pa : Nat
  bytes : List Byte
  /-- Agents for which it has passed its visibility point. -/
  seen : List Agent
  /-- Scopes c (0), t (1), d (2) to whose agents it is visible (R285, R286). -/
  scopes : List Nat
  /-- Scopes c (0), t (1), d (2) of the fences of its thread that follow it (R287). -/
  fences : List Nat
  /-- Tick at which its instruction issued: the stores of its lanes keep lane order (R197). -/
  time : Nat := 0
deriving DecidableEq, Repr

/-! ## Launch unit, grids and teams -/

/-- A launch record (R349). -/
structure LaunchRec where
  entry : DWord
  teams : Word
  shape : Word
  array : Word
  sched : Word
  grid : Word
  parent : Word
  asid : Word
  constsz : Word
  const : DWord
  traph : DWord
  trapa : DWord
  spawn : List DWord
  ring : DWord
  ringsz : Word
  savesz : Word
  save : DWord
  done : DWord
  key : List Word
  wait : List (DWord × DWord)
deriving DecidableEq, Repr

/-- How far a grid has come (R354 to R356). -/
inductive GridSt where
  | queued | admitted | ready | ended
deriving DecidableEq, Repr

/-- A grid: a pushed launch record and its progress. -/
structure Grid where
  /-- Number of the push. -/
  key : Nat
  rcd : LaunchRec
  /-- Address of the record: physical for a runtime push, virtual for LAUNCH. -/
  addr : DWord
  /-- Pushed by the runtime (R352). -/
  byRuntime : Bool
  queue : Nat
  st : GridSt
  nextTeam : Nat
  /-- Teams that have retired, failed or been killed. -/
  ended : Nat
  parentKey : Option Nat
  drained : Bool
  /-- The end of its drain has been signalled (R364). -/
  drainTold : Bool
  killed : Bool
  /-- The done word has been incremented or R459 has applied (R363). -/
  finished : Bool
deriving DecidableEq, Repr

/-- An arrival at a team barrier (R212, R214): a warp's lane, and for BARR its function, value and destination. -/
structure Arrival where
  w : Nat
  lane : Nat
  tid : Nat
  /-- BARR function 0 to 7, or none for BAR. -/
  fn : Option Nat
  val : DWord
  dst : VReg
  pc : DWord
  pri : BitVec 3
  insn : Word
deriving DecidableEq, Repr

/-- Functions of MMODE and MCAL (R245). -/
inductive ModeFn where
  | c | s | cal
deriving DecidableEq, Repr

/-- What the mode instance of a team is doing (R245 to R248). -/
inductive ModeSt where
  | idle
  /-- Arrivals: warp, function, lanes, pc, priority and word. -/
  | gathering (arr : List (Nat × ModeFn × Mask × DWord × BitVec 3 × Word))
  /-- MMODE.C complete; waits for these copies (R246 step 1). -/
  | cWait (copies : List Nat)
  /-- MMODE.C between its mode point and unparking (R326). -/
  | cStart
  /-- MMODE.S complete; waits for the queued MMULs (R247). -/
  | sWait
  /-- MMODE.S has verified and waits for space for its records (R444). -/
  | sDone
  /-- MCAL in progress (R248). -/
  | cal
deriving DecidableEq, Repr

/-- How a team stands (R35, R271, R275). -/
inductive TeamSt where
  | running | retired | failed | killed
deriving DecidableEq, Repr

/-- Why a team fails, with the fields of its record (R271, R446). -/
structure Failure where
  code : Nat
  die : Nat
  core : Nat
  addr : DWord
  data : List Byte
deriving DecidableEq, Repr

/-- A placed team (R35, R360). -/
structure Team where
  gk : Nat
  idx : Nat
  die : Nat
  /-- Its core, or the leader core of its pair (R32). -/
  core : Nat
  twin : Bool
  mat : Bool
  /-- Macros per core and the first of them (R312). -/
  units : Nat
  p0 : Nat
  /-- SAT NV DZ OF UF NX in bits 5 to 0 (R24). -/
  tflags : BitVec 6
  st : TeamSt
  /-- Cycle of its die at placement (R358). -/
  placedAt : Nat
  arrivals : List Arrival
  mode : ModeSt
  /-- It fails for this reason and has not ended yet: a store of it, or the space for its record, is waited for (R271, R444). -/
  due : Option Failure
deriving DecidableEq, Repr

/-- A launch queue (R352, R353, R358). -/
structure Queue where
  en : Bool
  quantum : Nat
  deficit : Int
  ovf : Bool
  /-- Grids in the FIFO, head first. -/
  fifo : List Nat
  credited : Bool
deriving DecidableEq, Repr

/-- The launch unit of the H-die (R352 to R364, R415). -/
structure LaunchUnit where
  queues : List Queue
  /-- Ring pointer of each class 0 to 3 (R358). -/
  pointers : List Nat
  /-- The selected team not yet placed: grid number and team index (R359). -/
  selected : Option (Nat × Nat)
  /-- Die that was served last (R359). -/
  lastDie : Nat
  /-- Grids named by the last GCMD write (R363). -/
  named : List Nat
  /-- The lane that holds the serial permit, and those waiting for it in request order (R227, R415). -/
  permit : Option (Nat × Nat)
  permitQ : List (Nat × Nat)
  /-- Interrupt at the end of a drain (R364). -/
  drainIrq : Bool
  /-- Address space and page of the launch unit's accesses that FRES answered unresolvable (R354, R355, R459). -/
  answers : List (Nat × Nat)
  /-- Runtime pushes whose record cannot be read yet, in order: queue and physical address (R352). -/
  pushes : List (Nat × DWord)
deriving DecidableEq, Repr

/-! ## Memory management, errors, platform -/

/-- Who waits on a page (R395). -/
inductive Waiter where
  | warp (w : Nat)
  | copy (c : Nat)
  | cooper (die core : Nat)
  | launch
  /-- A request of another device: the source and the frame's sequence number. -/
  | remote (src : Nat) (seq : Word)
deriving DecidableEq, Repr

/-- An outstanding translation fault (R395). -/
structure PageFault where
  asid : Nat
  page : Nat
  acc : Access
  source : Nat
  malformed : Bool
  core : Nat
  die : Nat
  /-- Entered in the fault queue. -/
  entered : Bool
  /-- A migration fault: never recorded (R401). -/
  mig : Bool
  waiters : List Waiter
deriving DecidableEq, Repr

/-- A migration in progress (R400): number, command slot, mapping, old and new frames, entry address. -/
structure Migration where
  uid : Nat
  slot : Nat
  asid : Nat
  page : Nat
  old : Nat
  new : Nat
  pte : Nat
deriving DecidableEq, Repr

/-- Memory-management registers and engines of the H-die (R395 to R400). -/
structure Mmu where
  atbase : DWord
  fqbase : DWord
  fqhead : DWord
  fqtail : DWord
  mqbase : DWord
  mqtail : DWord
  mqhead : DWord
  tfree : List DWord
  tlow : List DWord
  thigh : List DWord
  /-- Frames of tier 2 that the bridge has mapped (R398). -/
  tier2 : Nat
  /-- Frames of tier 2 on CXL devices that have failed entirely: the first and how many (R423). -/
  lost : List (Nat × Nat)
  /-- Demotion interrupts of tiers 0 to 2 (R399). -/
  demote : List Bool
  /-- The shootdown in progress, while SDSTAT bit 0 reads 1: operation, page, ASID (R396). -/
  sdNow : Option (Nat × Nat × Nat)
  /-- Shootdown writes that wait. -/
  sdQueue : List (Nat × Nat × Nat)
  faults : List PageFault
  migs : List Migration
deriving DecidableEq, Repr

/-- Error-control registers (R444, R447). -/
structure ErrCtl where
  eqbase : DWord
  eqhead : DWord
  eqtail : DWord
  eqcorr : DWord
  /-- Correctable errors counted and not yet recorded: die, core, store, count, and tick of the last record (R447). -/
  corr : List (Nat × Nat × Nat × Nat × Option Nat)
  /-- Records of the H-die awaiting space in the queue (R444). -/
  held : List ErrRec
  /-- MODEL: the dies, 7 for the H-die, of the records awaiting space, oldest record first (R449). -/
  order : List Nat
  /-- MODEL: records of agents that wait at the point of reporting, ring and hold being full, oldest first (R444). -/
  waiting : List ErrRec
deriving DecidableEq, Repr

/-- Power control (R456 to R458). -/
structure Power where
  busy : Bool
  drop : Bool
  throt : Bool
  plimit : Nat
  /-- Hottest junction, in 1/16 °C. -/
  temp : Nat
  /-- Firmware has lowered a P-state to keep within PLIMIT (R457). -/
  lowered : Bool
  /-- The package has requested removal of its main rails (R458). -/
  tripped : Bool
  rails : Bool
deriving DecidableEq, Repr

/-- Stages of boot (R451). -/
inductive BootSt where
  | off | recovery | running
deriving DecidableEq, Repr

/-- SPDM session (R454). -/
inductive Spdm where
  | start | version | caps | algs | keyExchanged | session
deriving DecidableEq, Repr

/-- The algorithms of attestation (R454). -/
inductive SpdmAlg where
  | ecdsaP384 | sha384 | aes256Gcm
deriving DecidableEq, Repr

/-- Boot, identity and management (R451 to R455). -/
structure Mgmt where
  boot : BootSt
  /-- Flash slots A and B. -/
  slotA : List Byte
  slotB : List Byte
  /-- The operating system image. -/
  osImage : List Byte
  /-- The package booted slot B. -/
  bootedB : Bool
  /-- Slot B holds the last update, which takes effect at the next reset (R455). -/
  firstB : Bool
  /-- Fused secret (R453), key hash and security version counter. -/
  secret : BitVec 384
  keyHash : BitVec 384
  svnFuse : Nat
  svn : Nat
  /-- Measurements 1 to 4 (R454). -/
  meas : List (BitVec 384)
  spdm : Spdm
  transcript : List Byte
  /-- The session's algorithms, once negotiated, and its key, once exchanged. -/
  algs : List SpdmAlg
  sessionKey : Option (BitVec 256)
  /-- Messages sent over the management port, oldest first. -/
  out : List (List Byte)
  /-- Report of a thermal trip at the next boot (R458). -/
  tripReport : Bool
  /-- LPDDR6 that the board maker fitted, in GiB (R382). -/
  fitted : Nat
  /-- The CXL ports in host role (R420). -/
  hostPorts : List Bool
  dev : Nat
  serial : DWord
  /-- The operating system runs on the application cores (R451 step 5). -/
  osRuns : Bool
deriving DecidableEq, Repr

/-- A receive window for a source device (R438): every number below `base` has been received, and those in `got`. -/
structure RxWindow where
  src : Nat
  base : Word
  got : List Word
deriving DecidableEq, Repr

/-- A frame sent that is not acknowledged yet (R438). -/
structure OutFrame where
  id : Nat
  frame : Frame
  /-- The transfer that it belongs to; none for an answer, or where the transfer has ended. -/
  owner : Option Nat
  /-- Transmissions, the time of the first and of the last, in ticks. -/
  tries : Nat
  born : Nat
  last : Nat
deriving DecidableEq, Repr

/-- A frame on its way out: the Ethernet port, the destination MAC address and the frame (R435, R437). -/
structure SentFrame where
  port : Nat
  mac : BitVec 48
  frame : Frame
deriving DecidableEq, Repr

/-- A transfer of the Smine Remote transport (R437, R438). -/
structure Xfer where
  id : Nat
  /-- Number of the copy. -/
  copy : Nat
  dst : Nat
  /-- OP of R237, lines sent or asked for, the addresses LA and RA, and the status that ends it once they are confirmed. -/
  op : Nat
  total : Nat
  la : Nat
  ra : Nat
  stop : Nat
  /-- Lines confirmed. -/
  confirmed : Nat
deriving DecidableEq, Repr

/-- Ethernet ports and the Smine Remote transport (R434 to R438). -/
structure Remote where
  /-- The route table: entries of 128 bits by device number, below 524,288; one not listed is zero (R435). -/
  routes : List (Nat × QWord)
  /-- Export table: source device, source ASID, local ASID (R436). -/
  exports : List (Nat × Nat × Nat)
  rx : List RxWindow
  /-- Next sequence number per destination. -/
  tx : List (Nat × Word)
  xfers : List Xfer
  /-- Frames that are not acknowledged yet. -/
  out : List OutFrame
  /-- Frames that have left so far: the next takes the next port of its route's mask. -/
  turn : Nat
  /-- Requests refused for a page that does not resolve: source device and sequence number (R395, R440). -/
  refused : List (Nat × Word)
  sent : List SentFrame
deriving DecidableEq, Repr

/-- Links of the fabric: the two dies (4 for H), replays failed in a row, retrained already (R403). -/
structure Link where
  x : Nat
  y : Nat
  fails : Nat
  retrained : Bool
deriving DecidableEq, Repr

/-- One package and its memory. -/
structure State where
  /-- SKU of the part (R1). -/
  sku : Config.Sku
  /-- LPDDR6 used, in GiB (R382). -/
  ddr : Nat
  /-- Time since package reset in ticks of 1/18 ns; the time register reads nanoseconds (R21). -/
  ticks : Nat
  /-- Bytes of physical memory that differ from what an unlisted address reads as, by rising address. -/
  mem : List Host.Cell
  /-- Poisoned granules of physical memory: PA divided by 8, rising (R208). -/
  poison : List Nat
  /-- MODEL: the warp whose instruction issues next, taken out of `warps` (DESIGN CHOICE, log entry 1). -/
  cur : Option Warp
  warps : List Warp
  /-- Core k of die d at 96 d + k. -/
  cores : List Core
  dies : List Die
  lines : List LineRec
  /-- MODEL: uses of lines in L2s and snoop filters so far, the order in which they are replaced (R388, R407; DESIGN CHOICE, log entry 59). -/
  uses : Nat
  posted : List Posted
  lu : LaunchUnit
  grids : List Grid
  teams : List Team
  mmu : Mmu
  err : ErrCtl
  pwr : Power
  mgmt : Mgmt
  net : Remote
  links : List Link
  /-- A package machine check has been raised (R403). -/
  machineCheck : Bool
  /-- MODEL: events that happen before the next instruction, in order (DESIGN CHOICE, log entry 1). -/
  agenda : List Instr
  /-- MODEL: the issuing warp waits, so an event of the machine comes first (DESIGN CHOICE, log entry 1). -/
  stall : Bool
  /-- MODEL: while an instruction executes, the lines taken from the issuing warp, with whether by a recall and the lane of it that
  wrote; it answers at the end of the instruction (R340; DESIGN CHOICE, log entry 1). -/
  snooped : Option (List (Nat × Bool × Option Nat))
  /-- MODEL: whether each coming plain store, and each coming instruction of plain loads, is left unperformed for a while (DESIGN
  CHOICE, DESIGN CHOICE, log entry 4). -/
  defer : List Bool
  /-- MODEL: counter the free values are drawn with (DESIGN CHOICE, log entry 5). -/
  free : Nat
  /-- MODEL: number of the next warp, copy, grid or posted store (DESIGN CHOICE, log entry 1). -/
  nextUid : Nat
  /-- MODEL: the word being issued, for the trap record's INSN (DESIGN CHOICE, log entry 1). -/
  insn : Word
deriving DecidableEq, Repr

/-! ## Reset -/

/-- A transaction record at thread start (R221). -/
def Tx.init : Tx :=
  { state := .idle, cause := 0, code := 0, sl := false, aborts := 0, cn := false, addr := 0, save := none, rset := [],
    wset := [], rlines := [], wlines := [], pages := [], logged := [], insns := 0, contention := 0, lastLines := [], serial := false }

/-- A lane with `n` registers at thread start (R13). -/
def Lane.init (n : Nat) : Lane :=
  { life := .live, regs := List.replicate n 0, badRegs := [], softRegs := [], preds := 0, xr := [0, 0, 0], fflags := 0, tx := Tx.init,
    gtid := 0, sid := 0, lastsid := 0, team := 0, ordinal := 0, join := none, stack := [], stackPoison := [], win := [],
    winPoison := [], winSeed := 0 }

/-- A lane that was never launched (R171). -/
def Lane.absent : Lane := { Lane.init 0 with life := .never }

/-- A memory of undefined contents. -/
def Ram.init (seed : Nat) : Ram := { cells := [], seed := seed, poison := [] }

/-- A macro that no team holds. -/
def CimUnit.init : CimUnit :=
  { mode := .freed, owner := none, seed := 0, scrubbed := [], ldaErr := [], soft := [], readers := [] }

/-- A core after reset. -/
def Core.init : Core :=
  { powered := 0, slots := [none, none, none, none], array := [], arrPoison := [], units := List.replicate 40 CimUnit.init,
    rowBuf := Ram.init 0, acc := Ram.init 0, scale := Ram.init 0, mat := none, copies := [], mq := [], run := none,
    cooper := { store := [], parts := [], spilling := false, lastRing := 0, answers := [] }, l1 := [], icache := [], tlb := [], perf := List.replicate 17 0,
    temp := 0, calTemp := 0, bandOut := false }

/-- A die after boot: P2 (R451), back-off 16 (R361). -/
def Die.init : Die :=
  { cycles := 0, rest := 0, pstate := 2, pnext := none, l2tlb := [], rings := [], deadRings := [], blindRings := [], resv := none,
    backoff := 16, conflicts := 0, waitBack := false, stopPair := none, heldErr := [], slices := [] }

/-- A line that nobody holds. -/
def LineRec.init (line : Nat) : LineRec :=
  { line := line, st := [.i, .i, .i, .i, .i], present := 0, lru := 0, use := [0, 0, 0, 0], sharers := [0, 0, 0, 0],
    sole := [none, none, none, none], engine := none, recalled := false, narrow := [], busy := none, queue := [], acks := [],
    lock := none, halves := [.hi, .hi], asked := [none, none], wb := [] }

/-- A launch queue at reset: EN 0, QUANTUM 2^20, QDEFICIT 0, C clear (R353, R358); OVF 0 by DESIGN CHOICE, log entry 3. -/
def Queue.init : Queue :=
  { en := false, quantum := 2 ^ 20, deficit := 0, ovf := false, fifo := [], credited := false }

/-- The machine right after reset, as a K4 module whose firmware has booted (DESIGN CHOICE, log entry 3): no grid, no warp, memory with
nothing listed. -/
def State.reset : State :=
  { sku := .k4, ddr := 256, ticks := 0, mem := [], poison := [], cur := none, warps := [],
    cores := List.replicate 384 Core.init, dies := List.replicate 4 Die.init, lines := [], uses := 0, posted := [],
    lu := { queues := List.replicate 64 Queue.init, pointers := [0, 0, 0, 0], selected := none, lastDie := 3, named := [],
            permit := none, permitQ := [], drainIrq := false, answers := [], pushes := [] },
    grids := [], teams := [],
    mmu := { atbase := 0, fqbase := 0, fqhead := 0, fqtail := 0, mqbase := 0, mqtail := 0, mqhead := 0,
             tfree := [0, 0, 0], tlow := [0, 0, 0], thigh := [0, 0, 0], tier2 := 0, lost := [], demote := [false, false, false],
             sdNow := none, sdQueue := [], faults := [], migs := [] },
    err := { eqbase := 0, eqhead := 0, eqtail := 0, eqcorr := 0, corr := [], held := [], order := [], waiting := [] },
    pwr := { busy := false, drop := false, throt := false, plimit := 1600, temp := 0, lowered := false, tripped := false,
             rails := true },
    mgmt := { boot := .running, slotA := [], slotB := [], osImage := [], bootedB := false, firstB := false, secret := 0,
              keyHash := 0, svnFuse := 0, svn := 0, meas := [], spdm := .start, transcript := [], algs := [], sessionKey := none, out := [], tripReport := false, fitted := 256,
              hostPorts := [false, false], dev := 0,
              serial := 0, osRuns := true },
    net := { routes := [], exports := [], rx := [], tx := [], xfers := [], out := [], turn := 0, refused := [], sent := [] },
    links := [], machineCheck := false, agenda := [], stall := false, snooped := none, defer := [], free := 0, nextUid := 0, insn := 0 }

end Sys2Proof.Machine
end

