-- ==== Sys2Proof/Machine/Mem.lean ====
section
/-! DEFINITION. Memories as sorted lists of cells, bytes and little-endian values (R9), granules of poison (R208), and the
accessors of the state's parts. -/
namespace Sys2Proof.Machine

open Sys2Proof

/-! ## Cells -/

/-- The byte a list of cells holds at an address, if it lists one. -/
def cellGet : List Host.Cell → Nat → Option Byte
  | [], _ => none
  | (k, b) :: t, a => if k = a then some b else cellGet t a

/-- Puts a byte at an address, keeping the order of addresses. -/
def cellPut : List Host.Cell → Nat → Byte → List Host.Cell
  | [], a, b => [(a, b)]
  | (k, v) :: t, a, b =>
    if k < a then (k, v) :: cellPut t a b
    else if k = a then (a, b) :: t
    else (a, b) :: (k, v) :: t

/-- Removes the cell of an address. -/
def cellDel (l : List Host.Cell) (a : Nat) : List Host.Cell := l.filter (fun c => c.1 != a)

/-- The cells that writes in order leave, by address. -/
def finalBytes (cs : List Host.Cell) : List Host.Cell := cs.foldl (fun c x => cellPut c x.1 x.2) []

/-- Addresses rise strictly. -/
def cellsRise : List Host.Cell → Bool
  | [] => true
  | [_] => true
  | (a, _) :: (b, v) :: t => decide (a < b) && cellsRise ((b, v) :: t)

/-- What an unlisted address of physical memory reads as: 0 (DESIGN CHOICE, log entry 2). -/
def Memory.unlisted : Byte := 0

/-- The canonical form of physical memory: strictly rising addresses, and no cell that reads as an unlisted one. -/
def Memory.wf (m : List Host.Cell) : Bool := cellsRise m && m.all (fun c => c.2 != Memory.unlisted)

/-- Reads one byte of physical memory. -/
def Memory.read (m : List Host.Cell) (a : Nat) : Byte := (cellGet m a).getD Memory.unlisted

/-- Writes one byte of physical memory. -/
def Memory.write (m : List Host.Cell) (a : Nat) (b : Byte) : List Host.Cell :=
  if b = Memory.unlisted then cellDel m a else cellPut m a b

/-- Writes bytes at rising addresses. -/
def Memory.writes (m : List Host.Cell) (a : Nat) : List Byte → List Host.Cell
  | [] => m
  | b :: t => Memory.writes (Memory.write m a b) (a + 1) t

/-! ## Bytes and values -/

/-- The low `n` bytes of a value, least significant first (R9). -/
def toBytes : Nat → Nat → List Byte
  | 0, _ => []
  | n + 1, v => BitVec.ofNat 8 v :: toBytes n (v / 256)

/-- `n` bytes of a reader from address `a`. -/
def bytesAt (rd : Nat → Byte) (a n : Nat) : List Byte := (List.range n).map (fun i => rd (a + i))

/-- The little-endian value of `n` bytes of a reader (R9). -/
def valAt (rd : Nat → Byte) (a n : Nat) : Nat := leNat (bytesAt rd a n)

/-- Reads `x` as a signed value of `n` bits (R124's helper Sx). -/
def sx (x n : Nat) : Int :=
  let v := x % 2 ^ n
  if v < 2 ^ (n - 1) then (v : Int) else (v : Int) - 2 ^ n

/-- Keeps the low `n` bits of an integer (the manual's Trunc). -/
def trunc (x : Int) (n : Nat) : Nat := (x % (2 ^ n : Int)).toNat

/-- Bits hi:lo of a number. -/
def bits (x hi lo : Nat) : Nat := (x >>> lo) % 2 ^ (hi + 1 - lo)

/-! ## Sets of numbers, kept rising -/

/-- Adds a number to a rising list. -/
def setPut : List Nat → Nat → List Nat
  | [], a => [a]
  | k :: t, a => if k < a then k :: setPut t a else if k = a then k :: t else a :: k :: t

/-- Removes a number. -/
def setDel (l : List Nat) (a : Nat) : List Nat := l.filter (· != a)

/-- Granules that the bytes `a` to `a + n - 1` touch (R208). -/
def granules (a n : Nat) : List Nat :=
  if n = 0 then [] else (List.range ((a + n - 1) / 8 + 1 - a / 8)).map (· + a / 8)

/-- Pieces of the `n` bytes at `a`, none of which crosses a granule. -/
def pieces (a n : Nat) : List (Nat × Nat) :=
  (granules a n).map (fun g => (max a (8 * g), min (a + n) (8 * g + 8) - max a (8 * g)))

/-- Some granule that the bytes touch is poisoned. -/
def touchesPoison (p : List Nat) (a n : Nat) : Bool := p.any (fun g => decide (a < 8 * g + 8 && 8 * g < a + n))

/-- Some poisoned granule is written in part only (R208). -/
def partPoison (p : List Nat) (a n : Nat) : Bool :=
  p.any (fun g => decide (a < 8 * g + 8 && 8 * g < a + n) && !decide (a ≤ 8 * g && 8 * g + 8 ≤ a + n))

/-- Poison after a write of the bytes: granules written whole are clean (R208). -/
def clearPoison (p : List Nat) (a n : Nat) : List Nat :=
  p.filter (fun g => !decide (a ≤ 8 * g && 8 * g + 8 ≤ a + n))

/-! ## Memories of undefined first contents -/

/-- Reads a byte; one that nothing has written is a free value (R13, DESIGN CHOICE, log entry 5). -/
def Ram.read (r : Ram) (a : Nat) : Byte := (cellGet r.cells a).getD (Config.freeByte r.seed a)

/-- Writes bytes, clearing the poison of granules written whole. -/
def Ram.writes (r : Ram) (a : Nat) (bs : List Byte) : Ram :=
  { r with
    cells := (bs.zipIdx).foldl (fun c bi => cellPut c (a + bi.2) bi.1) r.cells
    poison := clearPoison r.poison a bs.length }

/-- The little-endian value of `n` bytes. -/
def Ram.val (r : Ram) (a n : Nat) : Nat := valAt r.read a n

/-- Marks granules poisoned. -/
def Ram.poisonAt (r : Ram) (gs : List Nat) : Ram := { r with poison := gs.foldl setPut r.poison }

/-! ## Parts of the state -/

/-- Core k of die d. -/
def State.core (s : State) (d k : Nat) : Core := s.cores.getD (96 * d + k) Core.init

/-- Changes core k of die d. -/
def State.modCore (s : State) (d k : Nat) (f : Core → Core) : State :=
  { s with cores := s.cores.modify (96 * d + k) f }

/-- Die d. -/
def State.die (s : State) (d : Nat) : Die := s.dies.getD d Die.init

/-- Changes die d. -/
def State.modDie (s : State) (d : Nat) (f : Die → Die) : State := { s with dies := s.dies.modify d f }

/-- A warp by its number, the issuing one included. -/
def State.warp? (s : State) (u : Nat) : Option Warp :=
  match s.cur with
  | some w => if w.uid = u then some w else s.warps.find? (fun x => x.uid == u)
  | none => s.warps.find? (fun x => x.uid == u)

/-- Changes a warp by its number. -/
def State.modWarp (s : State) (u : Nat) (f : Warp → Warp) : State :=
  { s with
    cur := s.cur.map (fun w => if w.uid = u then f w else w)
    warps := s.warps.map (fun w => if w.uid = u then f w else w) }

/-- Every warp, the issuing one first. -/
def State.allWarps (s : State) : List Warp := s.cur.toList ++ s.warps

/-- A grid by its number. -/
def State.grid? (s : State) (k : Nat) : Option Grid := s.grids.find? (fun g => g.key == k)

/-- Changes a grid. -/
def State.modGrid (s : State) (k : Nat) (f : Grid → Grid) : State :=
  { s with grids := s.grids.map (fun g => if g.key = k then f g else g) }

/-- A team by grid number and index. -/
def State.team? (s : State) (gk i : Nat) : Option Team := s.teams.find? (fun t => t.gk == gk && t.idx == i)

/-- Changes a team. -/
def State.modTeam (s : State) (gk i : Nat) (f : Team → Team) : State :=
  { s with teams := s.teams.map (fun t => if t.gk = gk ∧ t.idx = i then f t else t) }

/-- The record of a line; a line without one is held nowhere. -/
def State.line (s : State) (l : Nat) : LineRec := (s.lines.find? (fun r => r.line == l)).getD (LineRec.init l)

/-- Changes the record of a line, making one where there is none. -/
def State.modLine (s : State) (l : Nat) (f : LineRec → LineRec) : State :=
  if s.lines.any (fun r => r.line == l) then
    { s with lines := s.lines.map (fun r => if r.line = l then f r else r) }
  else { s with lines := f (LineRec.init l) :: s.lines }

/-- A copy in flight by its number. -/
def State.copy? (s : State) (u : Nat) : Option Copy :=
  (s.cores.flatMap (fun c => c.copies)).find? (fun c => c.uid == u)

/-- Changes a copy in flight. -/
def State.modCopy (s : State) (u : Nat) (f : Copy → Copy) : State :=
  match s.copy? u with
  | none => s
  | some c => s.modCore c.die c.core (fun k =>
      { k with copies := k.copies.map (fun x => if x.uid = u then f x else x) })

/-- Draws a number that is never used again (DESIGN CHOICE, log entry 1). -/
def State.fresh (s : State) : Nat × State := (s.nextUid, { s with nextUid := s.nextUid + 1 })

/-- Draws a free value's number (DESIGN CHOICE, log entry 5). -/
def State.draw (s : State) : Nat × State := (s.free, { s with free := s.free + 1 })

/-- Adds `n` to a performance counter of a core (R348). -/
def State.count (s : State) (d k i n : Nat) : State :=
  s.modCore d k (fun c => { c with perf := c.perf.modify i (· + BitVec.ofNat 64 n) })

/-- The package has booted and its main rails are on: else no function of it is powered, or it waits for an image in recovery (R5, R451). -/
def State.up (s : State) : Bool := s.pwr.rails && decide (s.mgmt.boot = .running)

/-- An event that needs the package to run: without it nothing happens (R5, R451). -/
def State.whenUp (s : State) (x : Host.Outcome State Fault Refusal) : Host.Outcome State Fault Refusal := if s.up then x else .next s

/-! ## Physical map (R380, R381) -/

/-- GiB in bytes. -/
def gib : Nat := 2 ^ 30

/-- A physical address lies in a populated range (R380, R382), and on no CXL device that has failed entirely (R423). -/
def State.populated (s : State) (pa : Nat) : Bool :=
  decide (pa < s.sku.hbmGiB * gib)
    || (decide (0x0080_0000_0000 ≤ pa) && decide (pa < 0x0080_0000_0000 + s.ddr * gib))
    || (decide (0x0100_0000_0000 ≤ pa) && decide (pa < 0x0100_0000_0000 + s.mmu.tier2 * 65536) && decide (pa < 2 ^ 52)
      && s.mmu.lost.all (fun x => !(decide (x.1 ≤ pa / 65536 - 2 ^ 24) && decide (pa / 65536 - 2 ^ 24 < x.1 + x.2))))

/-- Home die of a physical address (R380). -/
def State.homeDie (s : State) (pa : Nat) : Nat :=
  if pa < 0x0080_0000_0000 then pa / (128 * gib) else (pa / 65536) % s.sku.dies

/-- Home slice of a physical address (R381). -/
def homeSlice (pa : Nat) : Nat := (pa / 128) % 48

/-- Tier of a physical address (R380). -/
def tierOf (pa : Nat) : Nat := if pa < 0x0080_0000_0000 then 0 else if pa < 0x0100_0000_0000 then 1 else 2

/-- Little-endian value of `n` bytes of physical memory. -/
def State.memVal (s : State) (a n : Nat) : Nat := valAt (Memory.read s.mem) a n

/-- Some granule of the bytes is poisoned (R208). -/
def State.poisoned (s : State) (a n : Nat) : Bool := touchesPoison s.poison a n

/-! ## Time (R10, R21) -/

/-- Ticks of 1/18 ns in a cycle at a P-state: 1.5, 1.2 and 0.9 GHz (R457). -/
def ticksPerCycle (p : Nat) : Nat := if p = 0 then 12 else if p = 1 then 15 else 20

/-- Lets ticks pass on a die. -/
def Die.pass (t : Nat) (d : Die) : Die :=
  let u := ticksPerCycle d.pstate
  { d with cycles := d.cycles + (d.rest + t) / u, rest := (d.rest + t) % u }

/-- Lets ticks pass on the package. -/
def State.passTicks (s : State) (t : Nat) : State := { s with ticks := s.ticks + t, dies := s.dies.map (Die.pass t) }

/-- Lets cycles of a die pass. -/
def State.passCycles (s : State) (d n : Nat) : State := s.passTicks (n * ticksPerCycle (s.die d).pstate)

/-- The time register: nanoseconds since package reset (R21). DESIGN CHOICE, log entry 36. -/
def State.timeReg (s : State) : DWord := BitVec.ofNat 64 (s.ticks / 18)

/-- The clock register of a core (R21). -/
def State.clockReg (s : State) (d k : Nat) : DWord := BitVec.ofNat 64 ((s.die d).cycles - (s.core d k).powered)

/-! ## Launch records and teams -/

/-- WARPS of SHAPE (R350). -/
def LaunchRec.warps (r : LaunchRec) : Nat := bits r.shape.toNat 4 0 + 1
/-- Warp width of SHAPE (R350). -/
def LaunchRec.width (r : LaunchRec) : Nat := 16 * 2 ^ bits r.shape.toNat 6 5
/-- Lane registers of SHAPE (R350). -/
def LaunchRec.regs (r : LaunchRec) : Nat := 4 * bits r.shape.toNat 12 8
/-- Private window in bytes (R350). -/
def LaunchRec.priv (r : LaunchRec) : Nat := 64 * bits r.shape.toNat 19 13
/-- Return-stack depth (R350). -/
def LaunchRec.stk (r : LaunchRec) : Nat := 8 * bits r.shape.toNat 23 20
/-- TWIN (R350). -/
def LaunchRec.twin (r : LaunchRec) : Bool := bits r.shape.toNat 24 24 == 1
/-- MAT (R350). -/
def LaunchRec.mat (r : LaunchRec) : Bool := bits r.shape.toNat 25 25 == 1
/-- Array units per core (R349). -/
def LaunchRec.units (r : LaunchRec) : Nat := bits r.array.toNat 5 0
/-- DEPTH of SCHED (R351). -/
def LaunchRec.depth (r : LaunchRec) : Nat := bits r.sched.toNat 23 20
/-- CLASS of SCHED (R351). -/
def LaunchRec.cls (r : LaunchRec) : Nat := bits r.sched.toNat 17 16
/-- QUEUE of SCHED (R351). -/
def LaunchRec.queue (r : LaunchRec) : Nat := bits r.sched.toNat 5 0
/-- Address-space identifier (R349). -/
def LaunchRec.asidN (r : LaunchRec) : Nat := bits r.asid.toNat 13 0
/-- Entry address of spawn entry e; 0 when empty (R349). -/
def LaunchRec.spawnEntry (r : LaunchRec) (e : Nat) : DWord := r.spawn.getD e 0
/-- Some spawn entry is filled. -/
def LaunchRec.spawns (r : LaunchRec) : Bool := r.spawn.any (· != 0)
/-- Threads per team (R30). -/
def LaunchRec.threads (r : LaunchRec) : Nat := r.warps * r.width

/-- A record of zeros. -/
def LaunchRec.zero : LaunchRec :=
  { entry := 0, teams := 0, shape := 0, array := 0, sched := 0, grid := 0, parent := 0, asid := 0, constsz := 0, const := 0,
    traph := 0, trapa := 0, spawn := List.replicate 8 0, ring := 0, ringsz := 0, savesz := 0, save := 0, done := 0,
    key := List.replicate 8 0, wait := List.replicate 4 (0, 0) }

/-- Reads the fields of a record from its 256 bytes (R349). -/
def LaunchRec.ofBytes (rd : Nat → Byte) : LaunchRec :=
  let w (o : Nat) : Word := BitVec.ofNat 32 (valAt rd o 4)
  let d (o : Nat) : DWord := BitVec.ofNat 64 (valAt rd o 8)
  { entry := d 0x00, teams := w 0x08, shape := w 0x0C, array := w 0x10, sched := w 0x14, grid := w 0x18,
    parent := w 0x1C, asid := w 0x20, constsz := w 0x24, const := d 0x28, traph := d 0x30, trapa := d 0x38,
    spawn := (List.range 8).map (fun e => d (0x40 + 8 * e)), ring := d 0x80, ringsz := w 0x88, savesz := w 0x8C,
    save := d 0x90, done := d 0x98, key := (List.range 8).map (fun i => w (0xA0 + 4 * i)),
    wait := (List.range 4).map (fun i => (d (0xC0 + 16 * i), d (0xC8 + 16 * i))) }

/-- The launch record of a warp's grid. -/
def State.recOf (s : State) (gk : Nat) : LaunchRec := ((s.grid? gk).map (·.rcd)).getD LaunchRec.zero

/-- ASID of a grid. -/
def State.asidOf (s : State) (gk : Nat) : Nat := (s.recOf gk).asidN

end Sys2Proof.Machine
end

