-- ==== Sys2Proof/Machine/Operands.lean ====
section
/-! DEFINITION. Operand forms: lane registers direct, vz and indexed, pairs and quads (R15 to R18, R65), scalar registers,
predicates and index registers (R18 to R20), and what an instruction touches (R48, R334). -/
namespace Sys2Proof.Machine

open Sys2Proof

/-! ## Lanes of a warp -/

/-- Lane L of a warp. -/
def Warp.lane (w : Warp) (L : Nat) : Lane := w.lanes.getD L Lane.absent

/-- Changes lane L. -/
def Warp.modLane (w : Warp) (L : Nat) (f : Lane → Lane) : Warp := { w with lanes := w.lanes.modify L f }

/-- Replaces lane L. -/
def Warp.setLane (w : Warp) (L : Nat) (l : Lane) : Warp := { w with lanes := w.lanes.set L l }

/-- The mask of one lane. -/
def laneBit (L : Nat) : Mask := (1 : Mask) <<< L

/-- Lanes of a mask, ascending. -/
def lanesOf (m : Mask) : List Nat := (List.range 64).filter (fun i => m.getLsbD i)

/-- The mask of a list of lanes. -/
def maskOf (ls : List Nat) : Mask := ls.foldl (fun m L => m ||| laneBit L) 0

/-- The lowest lane of a mask. -/
def lowestLane (m : Mask) : Nat := (lanesOf m).headD 0

/-- All lanes of a warp of width n. -/
def fullMask (n : Nat) : Mask := BitVec.ofNat 64 (2 ^ n - 1)

/-! ## Lane registers -/

/-- Alignment asked of an indexed operand of `n` registers: even for a pair, 4 for a quad (R16). -/
def regAlign (n : Nat) : Nat := if n = 2 then 2 else if n = 4 then 4 else 1

/-- The register number a field names in a lane, `some none` for vz; nothing where R16 raises REGIDX. -/
def resolve (alloc : Nat) (l : Lane) (r : VReg) (n : Nat) : Option (Option Nat) :=
  match r with
  | .z => some none
  | .v k => some (some k.val)
  | .ix j =>
    let i := (l.xr.getD j.val 0).toInt
    if 0 ≤ i ∧ i.toNat + n ≤ alloc ∧ i.toNat % regAlign n = 0 then some (some i.toNat) else none

/-- Register number `k` of a lane. -/
def Lane.reg (l : Lane) (k : Nat) : Word := l.regs.getD k 0

/-- Writes register number `k`; an uncorrectable word written before it is read is replaced (R306). -/
def Lane.setReg (l : Lane) (k : Nat) (v : Word) : Lane :=
  { l with regs := l.regs.set k v, badRegs := l.badRegs.filter (· != k), softRegs := l.softRegs.filter (· != k) }

/-- Reads register i of the operand: V(f, L) for i = 0 (R16, R17). -/
def Lane.rd (l : Lane) (alloc : Nat) (r : VReg) (n i : Nat) : Word :=
  match resolve alloc l r n with
  | some (some k) => l.reg (k + i)
  | _ => 0

/-- The helper V(f, L). -/
def Lane.v (l : Lane) (alloc : Nat) (r : VReg) : Word := l.rd alloc r 1 0

/-- The helper VP(f, L): the 64-bit value of the pair (R91). -/
def Lane.vp (l : Lane) (alloc : Nat) (r : VReg) : DWord := l.rd alloc r 2 1 ++ l.rd alloc r 2 0

/-- The 128-bit value of the quad (R91). -/
def Lane.vq (l : Lane) (alloc : Nat) (r : VReg) : QWord :=
  l.rd alloc r 4 3 ++ l.rd alloc r 4 2 ++ l.rd alloc r 4 1 ++ l.rd alloc r 4 0

/-- Writes the words `vs` to the operand, discarding them for vz (R17). -/
def Lane.wr (l : Lane) (alloc : Nat) (r : VReg) (vs : List Word) : Lane :=
  match resolve alloc l r vs.length with
  | some (some k) => vs.zipIdx.foldl (fun a vi => a.setReg (k + vi.2) vi.1) l
  | _ => l

/-- V(D, L) := v. -/
def Lane.setV (l : Lane) (alloc : Nat) (r : VReg) (v : Word) : Lane := l.wr alloc r [v]

/-- The two words of a pair, low first (R91). -/
def pairWords (v : DWord) : List Word := [v.extractLsb' 0 32, v.extractLsb' 32 32]

/-- The four words of a quad, low first (R91). -/
def quadWords (v : QWord) : List Word :=
  [v.extractLsb' 0 32, v.extractLsb' 32 32, v.extractLsb' 64 32, v.extractLsb' 96 32]

/-- VP(D, L) := v. -/
def Lane.setVP (l : Lane) (alloc : Nat) (r : VReg) (v : DWord) : Lane := l.wr alloc r (pairWords v)

/-- Quad D := v. -/
def Lane.setVQ (l : Lane) (alloc : Nat) (r : VReg) (v : QWord) : Lane := l.wr alloc r (quadWords v)

/-! ## Predicates, index and scalar registers -/

/-- Pred(p, L); pt reads as true (R19). -/
def Lane.pred (l : Lane) (p : PReg) : Bool := if p.val = 7 then true else l.preds.getLsbD p.val

/-- Pred(p, L) := b; writes to pt are discarded (R19). -/
def Lane.setPred (l : Lane) (p : PReg) (b : Bool) : Lane :=
  if p.val = 7 then l
  else { l with preds := if b then l.preds ||| ((1 : BitVec 7) <<< p.val) else l.preds &&& ~~~((1 : BitVec 7) <<< p.val) }

/-- S(f) (R18). -/
def Warp.sv (w : Warp) (k : Nat) : Word := w.sregs.getD k 0

/-- SP(f): an even scalar pair (R18). -/
def Warp.sp (w : Warp) (k : Nat) : DWord := w.sv (k + 1) ++ w.sv k

/-- S(D) := v. -/
def Warp.setS (w : Warp) (k : Nat) (v : Word) : Warp := { w with sregs := w.sregs.set k v }

/-- SP(D) := v. -/
def Warp.setSP (w : Warp) (k : Nat) (v : DWord) : Warp :=
  (w.setS k (v.extractLsb' 0 32)).setS (k + 1) (v.extractLsb' 32 32)

/-! ## What an instruction touches -/

/-- A lane-register operand: the bit of its field in DETAIL of REGIDX (1 D, 2 A, 4 C; R263), the field, how many registers,
whether it is read and whether it is written. -/
structure Use where
  f : Nat
  r : VReg
  n : Nat
  src : Bool
  dst : Bool
deriving DecidableEq, Repr

/-- The registers an instruction reads and writes. -/
structure Uses where
  regs : List Use := []
  /-- Predicates read, and written. -/
  ps : List PReg := []
  pd : List PReg := []
  /-- Scalar registers read, and written. -/
  ss : List Nat := []
  sd : List Nat := []
  /-- Writes an index register. -/
  xd : Bool := false
  /-- Takes the log entry of fflags, wmode and rsp (R334). -/
  fl : Bool := false
  /-- The destination is a variable-latency result (R47). -/
  var : Bool := false
deriving DecidableEq, Repr

/-- D is written, A is read. -/
def useDA (d a : VReg) (n : Nat := 1) : List Use := [⟨1, d, n, false, true⟩, ⟨2, a, n, true, false⟩]

/-- D is written, A and C are read. -/
def useDAC (d a c : VReg) (n : Nat := 1) : List Use := useDA d a n ++ [⟨4, c, n, true, false⟩]

/-- D is read and written, A and C are read. -/
def useDDAC (d a c : VReg) (n : Nat := 1) : List Use :=
  [⟨1, d, n, true, true⟩, ⟨2, a, n, true, false⟩, ⟨4, c, n, true, false⟩]

/-- A direct field names a register at or beyond the allocation (R15, R65). -/
def Use.beyond (alloc : Nat) (u : Use) : Bool :=
  match u.r with
  | .v k => decide (alloc < k.val + u.n)
  | _ => false

/-- Numbers of the pending list that direct operands touch: n, 0x80 + n and 0xC0 + n (R263). -/
def Uses.direct (u : Uses) : List Nat :=
  (u.regs.flatMap (fun x => match x.r with | .v k => (List.range x.n).map (· + k.val) | _ => []))
    ++ (u.ss ++ u.sd).map (· + 0x80)
    ++ ((u.ps ++ u.pd).filter (fun p => p.val != 7)).map (fun p => p.val + 0xC0)

/-- The least element of a list. -/
def least : List Nat → Option Nat
  | [] => none
  | a :: t => some (t.foldl Nat.min a)

/-- Indexed operands of a lane that fail R16: the OR of their field bits. -/
def Uses.badIndex (u : Uses) (alloc : Nat) (l : Lane) : Nat :=
  u.regs.foldl (fun m x => if (resolve alloc l x.r x.n).isNone then m ||| x.f else m) 0

/-- Registers that indexed operands of a lane resolve to. -/
def Uses.indexed (u : Uses) (alloc : Nat) (l : Lane) : List Nat :=
  u.regs.flatMap (fun x =>
    match x.r, resolve alloc l x.r x.n with
    | .ix _, some (some k) => (List.range x.n).map (· + k)
    | _, _ => [])

/-- Register numbers a lane's sources name. -/
def Uses.sources (u : Uses) (alloc : Nat) (l : Lane) : List Nat :=
  (u.regs.filter (·.src)).flatMap (fun x =>
    match resolve alloc l x.r x.n with
    | some (some k) => (List.range x.n).map (· + k)
    | _ => [])

/-- Register numbers a lane's destinations name. -/
def Uses.dests (u : Uses) (alloc : Nat) (l : Lane) : List Nat :=
  (u.regs.filter (·.dst)).flatMap (fun x =>
    match resolve alloc l x.r x.n with
    | some (some k) => (List.range x.n).map (· + k)
    | _ => [])

/-- A list without repeats. -/
def dedup (l : List Nat) : List Nat := l.foldl setPut []

/-- Shadow-log entries an instruction takes in the given lanes (R334). -/
def Uses.logItems (u : Uses) (w : Warp) (ls : List Nat) : List LogItem :=
  (dedup (ls.flatMap (fun L => u.dests w.alloc (w.lane L)))).map LogItem.reg
    ++ u.sd.map LogItem.sreg
    ++ (if u.pd.any (fun p => p.val != 7) then [LogItem.preds] else [])
    ++ (if u.xd then [LogItem.xregs] else [])
    ++ (if u.fl then [LogItem.flags] else [])

/-- Numbers that become pending when a variable-latency instruction issues in the given lanes (R47, R48). -/
def Uses.pending (u : Uses) (w : Warp) (ls : List Nat) : List Nat :=
  dedup (ls.flatMap (fun L => u.dests w.alloc (w.lane L))) ++ u.sd.map (· + 0x80)
    ++ (u.pd.filter (fun p => p.val != 7)).map (fun p => p.val + 0xC0)

end Sys2Proof.Machine
end

