-- ==== Sys2Proof/Machine/Flags.lean ====
section
/-! DEFINITION. Floating-point flags, the arithmetic mode, and what becomes of a flag that traps (R24, R108, R109). -/
namespace Sys2Proof.Machine

open Sys2Proof

/-- A set of flags: NV DZ OF UF NX in bits 4 to 0 (R24). -/
abbrev FFlags := BitVec 5

/-- Invalid operation. -/
def fNV : FFlags := 0x10
/-- Division by zero. -/
def fDZ : FFlags := 0x08
/-- Overflow. -/
def fOF : FFlags := 0x04
/-- Underflow. -/
def fUF : FFlags := 0x02
/-- Inexact. -/
def fNX : FFlags := 0x01

/-- DRM of wmode (R24). -/
def wmDrm (m : Word) : Nat := bits m.toNat 2 0
/-- FTZ of wmode (R24). -/
def wmFtz (m : Word) : Bool := m.getLsbD 3
/-- DAZ of wmode (R24). -/
def wmDaz (m : Word) : Bool := m.getLsbD 4
/-- TEN of wmode, in fflags bit order (R24). -/
def wmTen (m : Word) : FFlags := m.extractLsb' 5 5
/-- A value SWR may write to wmode: no reserved bit, DRM 0 to 4 (R22, R261). -/
def wmOk (m : Word) : Bool := decide (m.toNat < 1024) && decide (wmDrm m ≤ 4)

/-- What a lane of an instruction meets: a trap with DETAIL and ADDR (R263). -/
structure LTrap where
  cause : Nat
  detail : Nat
  addr : DWord
deriving DecidableEq, Repr

/-- Outcome of an instruction in one lane that touches only the lane: its new content, and a trap if it raises one. -/
structure LaneOut where
  l : Lane
  trap : Option LTrap := none
deriving DecidableEq, Repr

/-- The lane completes. -/
def LaneOut.ok (l : Lane) : LaneOut := { l := l }

/-- ORs flags into fflags (R108). -/
def Lane.orFlags (l : Lane) (f : FFlags) : Lane := { l with fflags := l.fflags ||| f }

/-- Cause FPX (R263). -/
def cFPX : Nat := 0x0C

/-- Ends a floating-point instruction in a lane: `res` is the lane with its destination written. The flags are ORed into
fflags; where a raised flag's TEN bit is set the lane raises FPX and keeps its destination (R108). -/
def flagged (wmode : Word) (old res : Lane) (f : FFlags) : LaneOut :=
  if f &&& wmTen wmode = 0 then .ok (res.orFlags f)
  else { l := old.orFlags f, trap := some ⟨cFPX, (f &&& wmTen wmode).toNat, 0⟩ }

/-- ORs flags of an engine or of the matrix path into a team's tflags; `sat` is SAT (R24, R109). -/
def Team.orTflags (t : Team) (f : FFlags) (sat : Bool) : Team :=
  { t with tflags := t.tflags ||| (BitVec.ofBool sat ++ f) }

end Sys2Proof.Machine
end

