-- ==== Sys2Proof/Machine/Frontier.lean ====
section
/-! DEFINITION. The frontier of a warp (R36 to R43), readiness (R299), transactions of a lane and their aborts (R220 to
R224). -/
namespace Sys2Proof.Machine

open Sys2Proof

/-! ## Entries -/

/-- An unparked entry. -/
def FEntry.at (pc : DWord) (pri : BitVec 3) (mask : Mask) : FEntry :=
  { pc := pc, pri := pri, mask := mask, park := .no, pfail := [] }

/-- The first entry ranks above the second: higher priority, then lower program counter (R37). -/
def FEntry.above (a b : FEntry) : Bool :=
  decide (b.pri.toNat < a.pri.toNat) || (decide (a.pri = b.pri) && decide (a.pc.toNat < b.pc.toNat))

/-- The highest ranked of the entries not parked (R37). -/
def selectEntry (front : List FEntry) : Option FEntry :=
  front.foldl (fun best e =>
    if e.park = .no then
      match best with
      | none => some e
      | some x => if e.above x then some e else some x
    else best) none

/-- Two entries merge: both unparked, at one program counter (R38). -/
def FEntry.mergesWith (a b : FEntry) : Bool := decide (a.park = .no) && decide (b.park = .no) && decide (a.pc = b.pc)

/-- Adds an entry to a frontier, merging per R38: the masks are ORed and the greater priority is kept. -/
def addEntry : List FEntry → FEntry → List FEntry
  | [], e => [e]
  | x :: t, e =>
    if x.mergesWith e then
      { x with mask := x.mask ||| e.mask, pri := if x.pri.toNat < e.pri.toNat then e.pri else x.pri, pfail := x.pfail ++ e.pfail
               bad := x.bad || e.bad } :: t
    else x :: addEntry t e

/-- Drops empty entries and merges the rest. -/
def mergeFront (front : List FEntry) : List FEntry :=
  (front.filter (fun e => e.mask != 0)).foldl addEntry []

/-- AddToFrontier of the manual: nothing for an empty set of lanes (R174). -/
def addLanes (front : List FEntry) (pc : DWord) (pri : BitVec 3) (m : Mask) : List FEntry :=
  if m = 0 then front else addEntry front (.at pc pri m)

/-- Takes lanes out of every entry (R41). -/
def dropLanes (front : List FEntry) (m : Mask) : List FEntry :=
  (front.map (fun e => { e with mask := e.mask &&& ~~~m })).filter (fun e => e.mask != 0)

/-- Entries unparked in the middle of a run become selectable, and may merge, at the start of the next one (R55). -/
def startFront (front : List FEntry) : List FEntry :=
  mergeFront (front.map (fun e => if e.park = .nextRun then { e with park := .no } else e))

/-- Unparks the entries that a predicate picks (R42, R212, R216). -/
def unpark (front : List FEntry) (p : FEntry → Bool) : List FEntry :=
  front.map (fun e => if p e then { e with park := .nextRun } else e)

/-- An entry takes its place in a list of entries in order of rank (R37). -/
def rankPut (e : FEntry) : List FEntry → List FEntry
  | [] => [e]
  | x :: t => if e.above x then e :: x :: t else x :: rankPut e t

/-- The entries kept in the spill area: all but the 8 highest ranked (R43). -/
def spilled (front : List FEntry) : List FEntry :=
  if front.length ≤ 8 then [] else (front.foldl (fun l e => rankPut e l) []).drop 8

/-- Every lane that some entry of the warp, held ones included, or a held trap has. -/
def Warp.liveMask (w : Warp) : Mask :=
  (w.front ++ w.held).foldl (fun m e => m ||| e.mask) 0 ||| w.heldTraps.foldl (fun m t => m ||| t.mask) 0

/-- A context not yielded has a selectable entry or one that becomes so at the next run. -/
def Warp.selectable (w : Warp) : Bool := w.front.any (fun e => decide (e.park = .no) || decide (e.park = .nextRun))

/-- R299: not in a run, results returned, a selectable entry, not parked, no trap to deliver first; and no entry of the spill area to
refill while it is speculative (R335). A warp with a team that fails issues nothing more (R271). -/
def Warp.ready (w : Warp) : Bool :=
  !w.inRun && w.pend.isEmpty && w.selectable && w.wait.isNone && !w.yielded && !w.yielding && !w.kill
    && !w.failing && !w.stopped && (w.heldTraps.isEmpty || (w.handler && w.heldTraps.all (!·.double))) && !(w.window.any (·.trapped))
    && (w.window.isNone || spilled (startFront w.front) == spilled w.front)

/-- The warp is speculative (R332). -/
def Warp.spec (w : Warp) : Bool := w.window.isSome

/-- A plain access: a store that is not posted, or the increment of a join counter (R189, R195). -/
def StoreRec.plain (x : StoreRec) : Bool := match x.spawn with | none => !x.posted | some r => r.1.join.isSome

/-- A plain load issued before the window has not performed (R331, R333). -/
def Warp.loadsDue (w : Warp) : Bool := w.loads.any (fun l => !l.spec)

/-- Every plain access that the warp has issued has performed and its completion has come back. -/
def Warp.settled (w : Warp) : Bool := w.sent.isEmpty && !w.cmpWait && w.loads.isEmpty

/-! ## Changes that a rollback keeps -/

/-- Changes a warp's entries, lanes and held traps, in its present state and in what its window would restore: an event that
is no part of the window outlives a rollback (R335). -/
def Warp.lasting (w : Warp) (ff : List FEntry → List FEntry) (fl : List Lane → List Lane)
    (ft : List HeldTrap → List HeldTrap) : Warp :=
  let sv (x : Save) : Save := { x with front := ff x.front, lanes := fl x.lanes, heldTraps := ft x.heldTraps }
  { w with
    front := ff w.front, held := ff w.held, lanes := fl w.lanes, heldTraps := ft w.heldTraps
    window := w.window.map (fun v => { v with save := sv v.save, points := v.points.map sv }) }

/-- Unparks entries for good. -/
def Warp.unparkAll (w : Warp) (p : FEntry → Bool) : Warp := w.lasting (fun f => unpark f p) id id

/-- Lanes parked at a synchronising instruction trap there: they leave their entry (R215, R245). -/
def Warp.trapParked (w : Warp) (t : HeldTrap) : Warp :=
  w.lasting (fun f => dropLanes f t.mask) id (fun ts => ts ++ [t])

/-! ## BARM (R216) -/

/-- The warp after a check of its BARM instance: complete when every lane named has arrived, has exited or never was. -/
def Warp.checkBarm (w : Warp) : Warp :=
  match w.barm with
  | none => w
  | some b =>
    match b.ref with
    | none => w
    | some m =>
      if (lanesOf m).all (fun L => b.arrived.getLsbD L || decide ((w.lane L).life ≠ .live)) then
        { w.unparkAll (fun e => e.park == .barm) with barm := none }
      else w

/-! ## Transactions of a lane -/

/-- STATE is ACTIVE (R221). -/
def Lane.txActive (l : Lane) : Bool := decide (l.tx.state = .active)

/-- Some lane is ACTIVE. -/
def Warp.anyTx (w : Warp) : Bool := w.lanes.any Lane.txActive

/-- The selected entry (R37): while a `txe` of the warp waits, the entry at it, for the warp issues nothing else (R225). -/
def Warp.selected (w : Warp) : Option FEntry :=
  (w.front.find? (fun e => decide (e.park = .no) && (lanesOf w.atTxe).any (fun L => e.mask.getLsbD L && (w.lane L).txActive))).or
    (selectEntry w.front)

/-- The txst register (R221). -/
def Tx.reg (t : Tx) : Word :=
  let st : Nat := match t.state with | .idle => 0 | .active => 1 | .committed => 2 | .aborted => 3
  BitVec.ofNat 32 (st + t.cause * 2 ^ 4 + t.code.toNat * 2 ^ 8 + t.sl.toNat * 2 ^ 16 + t.aborts * 2 ^ 17
    + t.cn.toNat * 2 ^ 20)

/-- The attempt stayed within the constrained limits (R227). -/
def Tx.constrained (t : Tx) : Bool :=
  decide (t.insns ≤ 32) && decide ((dedup (t.rlines ++ t.wlines)).length ≤ 4)

/-- Causes of R221. -/
def cConflict : Nat := 1
/-- INTRAWARP. -/
def cIntra : Nat := 2
/-- READCAP. -/
def cReadCap : Nat := 3
/-- WRITECAP. -/
def cWriteCap : Nat := 4
/-- REGCAP. -/
def cRegCap : Nat := 5
/-- EXPLICIT. -/
def cExplicit : Nat := 6
/-- FORBIDDEN. -/
def cForbidden : Nat := 7
/-- FAULT. -/
def cTxFault : Nat := 8
/-- LENGTH. -/
def cLength : Nat := 9

/-- The lane after an abort: what R220 recorded is restored, buffered stores and STP data are discarded, STATE, CAUSE, CODE,
ABORTS and the contention count follow R221, R224 and R227. -/
def Lane.aborted (l : Lane) (cause : Nat) (code : Option Byte) : Lane :=
  let con := l.tx.constrained && !(l.tx.serial && (cause == cLength || cause == cReadCap || cause == cWriteCap))
  let r := match l.tx.save with
    | none => l
    | some v => { l with regs := v.regs, badRegs := v.badRegs, softRegs := v.softRegs, preds := v.preds, xr := v.xr, fflags := v.fflags,
                         stack := v.stack, stackPoison := v.stackPoison, win := v.win, winPoison := v.winPoison }
  { r with tx := { l.tx with
      state := .aborted
      cause := cause
      code := code.getD l.tx.code
      aborts := if l.tx.aborts < 7 then l.tx.aborts + 1 else 7
      cn := con
      save := none
      rset := []
      wset := []
      lastLines := dedup (l.tx.rlines ++ l.tx.wlines)
      rlines := []
      pages := []
      logged := []
      wlines := []
      contention := if con ∧ (cause = cConflict ∨ cause = cIntra) then l.tx.contention + 1 else 0
      serial := false } }

/-- Entries that wait for a line of the serial attempt of their warp run on once it has ended (R227). -/
def Warp.freeLocked (w : Warp) : Warp :=
  { w with front := unpark w.front (fun e => e.park == .lock), held := unpark w.held (fun e => e.park == .lock) }

/-- The `txe` of a lane is over (R225). -/
def Warp.offTxe (w : Warp) (L : Nat) : Warp := { w with atTxe := w.atTxe &&& ~~~(laneBit L) }

/-- Aborts the transaction of lane L: the lane leaves its entry and joins one at the `txb` address plus 4 with the recorded
priority (R224); a lane held behind a handler stays held there (R268). -/
def Warp.abortLane (w : Warp) (L : Nat) (cause : Nat) (code : Option Byte) : Warp :=
  let l := w.lane L
  let pri := (l.tx.save.map (·.pri)).getD 4
  let w1 := w.setLane L (l.aborted cause code)
  let back (f : List FEntry) : List FEntry := addLanes (dropLanes f (laneBit L)) (l.tx.addr + 4) pri (laneBit L)
  let w2 := if w1.held.any (fun e => e.mask.getLsbD L) then { w1 with held := back w1.held } else { w1 with front := back w1.front }
  let w3 := (if l.tx.serial then w2.freeLocked else w2).offTxe L
  if w3.anyTx then w3 else { w3 with txLog := 0, txBuf := 0 }

/-- Releases the locks and the permit of a lane's attempt; the next requester takes the permit when it is granted (R227,
R415). -/
def State.releaseTx (s : State) (u L : Nat) : State :=
  { s with
    lines := s.lines.map (fun r => if r.lock = some (u, L) then { r with lock := none } else r)
    lu := { s.lu with permit := if s.lu.permit = some (u, L) then none else s.lu.permit } }

end Sys2Proof.Machine
end

