-- ==== Sys2Proof/Machine/Coher.lean ====
section
/-! DEFINITION. What happens to a line of memory: visibility of posted stores (R283 to R287), copies in caches (R383 to R388,
R404 to R413), snoops that roll warps back and abort transactions (R339, R224), and the one operation that applies a write
at the home (R284, R405, R411). -/
namespace Sys2Proof.Machine

open Sys2Proof

/-! ## Slots and warps -/

/-- The warp once its run has ended (R46). -/
def Warp.offSlot (w : Warp) : Warp := { w with inRun := false, count := 0 }

/-- Ends the run of the issuing warp: it leaves its slot and joins the other warps (R46). -/
def State.leaveSlot (s : State) (w : Warp) : State :=
  let s1 := s.modCore w.die w.core (fun c =>
    { c with slots := c.slots.map (fun x => if x = some w.uid then none else x) })
  { s1 with cur := none, warps := s1.warps ++ [w.offSlot] }

/-- Takes a warp out of its slot if it is in a run. -/
def State.unslot (s : State) (u : Nat) : State :=
  match s.cur with
  | some w => if w.uid = u then s.leaveSlot w else
      { s with cores := s.cores.map (fun c => { c with slots := c.slots.map (fun x => if x = some u then none else x) }),
               warps := s.warps.map (fun x => if x.uid = u then x.offSlot else x) }
  | none =>
      { s with cores := s.cores.map (fun c => { c with slots := c.slots.map (fun x => if x = some u then none else x) }),
               warps := s.warps.map (fun x => if x.uid = u then x.offSlot else x) }

/-! ## Rollback (R339 to R344) -/

/-- The warp after a rollback (R340, R343, R344): the log's values and the recorded frontier return, what the window held is
discarded, and the count of consecutive rollbacks follows the shadow point's address. What returned, or was struck, since the shadow
point stands in `save` too. `tscratch` keeps its value (DESIGN CHOICE, log entry 63). -/
def Warp.rolledBack (w : Warp) (win : Window) : Warp :=
  let n := if w.rbAddr = win.save.pc ∧ w.rbCount ≠ 0 then w.rbCount + 1 else 1
  { w with
    front := win.save.front, lanes := win.save.lanes, sregs := win.save.sregs, wmode := win.save.wmode,
    tags := win.save.tags, pend := win.save.pend, heldTraps := win.save.heldTraps, window := none, wait := none,
    loads := w.loads.filter (fun l => !l.spec), waitsOn := none,
    rbAddr := win.save.pc, rbCount := n, cautious := if n ≥ 4 then 65 else w.cautious }

/-- Discards the copies that a warp's window holds (R340, R347). -/
def State.dropPending (s : State) (w : Warp) (win : Window) : State :=
  s.modCore w.die w.core (fun c => { c with copies := c.copies.filter (fun x => !win.copies.any (fun y => y.2 == x.uid)) })

/-- Rolls a speculative warp back to its shadow point (R340); an uncorrectable log entry fails its team (R341). -/
def State.rollbackWarp (s : State) (u : Nat) : State :=
  match s.warp? u with
  | none => s
  | some w =>
    match w.window with
    | none => s
    | some win =>
      let s1 := (s.unslot u).modWarp u (fun x =>
        { x.rolledBack win with failing := x.failing || win.log.any (·.bad) })
      let s2 := s1.dropPending w win
      let s3 := (s2.count w.die w.core 3 1).count w.die w.core 4 (win.seq - win.save.seq)
      let s4 := if (w.rolledBack win).rbCount = 4 then s3.count w.die w.core 5 1 else s3
      (s4.count w.die w.core 15 win.copies.length).count w.die w.core 16 (win.buf.filter (fun b => b.spawn.isSome)).length

/-- Aborts the transaction of a lane of a warp (R224). -/
def State.abortTx (s : State) (u L cause : Nat) : State :=
  match s.warp? u with
  | none => s
  | some w => ((s.modWarp u (fun x => x.abortLane L cause none)).releaseTx u L).count w.die w.core 12 1

/-- Number of a watched line of array memory, above every global line (R337, R278). -/
def arrayLine (die core off : Nat) : Nat := 2 ^ 50 + (96 * die + core) * 3840 + off / 128

/-- Number of the line that a store's first byte lies in. -/
def lineKey (sp : Space) (a : Nat) : Nat :=
  match sp with
  | .global => a / 128
  | .array d k => arrayLine d k a

/-- A line is taken from a warp by an agent other than its lane `self`: it rolls back if another lane of it watches the line from an
open window (R339); its lanes whose read set has the line, or either set on a recall (`rc`), abort with CONFLICT (R224, R408). -/
def State.snoopWarp (s : State) (line : Nat) (rc : Bool) (self : Option Nat) (u : Nat) : State :=
  match s.warp? u with
  | none => s
  | some w =>
    let other (m : Mask) : Bool := match self with | none => true | some L => m &&& ~~~(laneBit L) != 0
    let s1 := if w.window.any (fun win => win.watch.any (fun x => x.line == line && other x.lanes)) then s.rollbackWarp u else s
    ((List.range w.width).filter (fun L => (w.lane L).txActive && self != some L &&
      ((w.lane L).tx.rlines.contains line || (rc && (w.lane L).tx.wlines.contains line)))).foldl
        (fun a L => a.abortTx u L cConflict) s1

/-- A line is taken from the warps that a predicate picks. `writer` is the thread that writes it, if one does. A warp whose
instruction is executing answers when it ends. -/
def State.snoopIf (s : State) (pick : Warp → Bool) (line : Nat) (writer : Option (Nat × Nat)) (rc : Bool) : State :=
  let lane (u : Nat) : Option Nat := writer.bind (fun x => if x.1 = u then some x.2 else none)
  match s.snooped with
  | none => ((s.allWarps.filter pick).map (·.uid)).foldl (fun a u => a.snoopWarp line rc (lane u) u) s
  | some l =>
    let me := (s.cur.map (·.uid)).bind lane
    ((s.warps.filter pick).map (·.uid)).foldl (fun a u => a.snoopWarp line rc (lane u) u)
      (if s.cur.any pick then { s with snooped := some (l ++ [(line, rc, me)]) } else s)

/-- A line is taken from every warp. -/
def State.snoop (s : State) (line : Nat) (writer : Option (Nat × Nat)) (rc : Bool) : State :=
  s.snoopIf (fun _ => true) line writer rc

/-- The line is taken from the warps of a die (R339, R388). -/
def State.snoopDie (s : State) (d line : Nat) : State := s.snoopIf (fun w => w.die == d) line none false

/-- Byte ranges overlap. -/
def overlaps (a n b m : Nat) : Bool := decide (a < b + m) && decide (b < a + n)

/-! ## Caches and the directory -/

/-- State of a holder (R404). -/
def LineRec.of (r : LineRec) (h : Nat) : Fab := r.st.getD h .i

/-- Holders whose state is not I. -/
def LineRec.holders (r : LineRec) : List Nat := (List.range 5).filter (fun h => r.of h != .i)

/-- The owner: the holder in M, O or E (R404). -/
def LineRec.owner (r : LineRec) : Option Nat :=
  (List.range 5).find? (fun h => r.of h == .m || r.of h == .o || r.of h == .e)

/-- State of a half at the host (R421). -/
def LineRec.half (r : LineRec) (i : Nat) : Half := r.halves.getD i .hi

/-- A half that the bytes touch may have been changed by a host that holds it (R421). -/
def LineRec.hostHas (r : LineRec) (pa n : Nat) : Bool :=
  (List.range 2).any (fun i => r.half i == .hm && overlaps pa n (128 * r.line + 64 * i) 64)

/-- No host holds a half. -/
def LineRec.hostFree (r : LineRec) : Bool := r.halves.all (· == .hi)

/-- An operation of the home on the line is in progress (R410, R417). -/
def LineRec.inWork (r : LineRec) : Bool := r.busy.isSome || !r.acks.isEmpty

/-- A transaction's lock or an operation keeps every other access from the line (R410, R415). -/
def LineRec.shut (r : LineRec) : Bool := r.lock.isSome || r.inWork

/-- Nothing at the home keeps a new operation from the line (R390, R410, R415). -/
def LineRec.isOpen (r : LineRec) : Bool := r.engine.isNone && !r.shut

/-- Changes every core of a die. -/
def State.modDieCores (s : State) (d : Nat) (f : Nat → Core → Core) : State :=
  { s with cores := s.cores.mapIdx (fun i c => if i / 96 = d then f (i % 96) c else c) }

/-- Removes a line from the L1 caches of a die, but for one core (R387: to every core of the sharer groups). -/
def State.dropL1 (s : State) (d line : Nat) (keep : Option Nat) : State :=
  if (s.line line).sharers.getD d 0 = 0 then s
  else
    let s1 := s.modDieCores d (fun i c =>
      if some i ≠ keep then { c with l1 := c.l1.filter (fun x => x.line != line) } else c)
    match keep with
    | none => s1.modLine line (fun r => { r with sharers := r.sharers.set d 0, sole := r.sole.set d none })
    | some k =>
      if (s.core d k).l1.any (fun x => x.line == line) then
        (s1.modCore d k (fun c => { c with l1 := c.l1.map (fun x => if x.line = line then { x with sole := true } else x) })).modLine
          line (fun r => { r with sharers := r.sharers.set d ((1 : BitVec 12) <<< (k / 8)), sole := r.sole.set d (some k) })
      else s1.modLine line (fun r => { r with sharers := r.sharers.set d 0, sole := r.sole.set d none })

/-- A holder's copy goes, and by inclusion every L1 copy of the die; the presence bit stays (R387, R412). -/
def State.leaveCopy (s : State) (h line : Nat) : State :=
  (s.dropL1 h line none).modLine line (fun r => { r with st := r.st.set h .i })

/-- A holder loses its copy and its presence bit (R411, R413). -/
def State.invalidate (s : State) (h line : Nat) : State :=
  (s.leaveCopy h line).modLine line (fun r => { r with present := r.present &&& ~~~((1 : BitVec 5) <<< h) })

/-! ## Room in an L2 and in a snoop filter (R387, R388, R407, R408) -/

/-- Where a line finds a place in a full set. -/
inductive Room where
  /-- A way is free, or the line is there. -/
  | fits
  /-- This line leaves. -/
  | evict (line : Nat)
  /-- The hosts must first give up the halves of this line. -/
  | ask (line : Nat)
  /-- Every way is kept by an operation or an engine. -/
  | full
deriving DecidableEq, Repr

/-- The line least recently used by an order. -/
def oldest (f : LineRec → Nat) (l : List LineRec) : Option LineRec :=
  l.foldl (fun b r => match b with | none => some r | some x => if f r < f x then some r else some x) none

/-- Lines that a warp of the die watches, from a window or in a read set (R337, R346). -/
def State.dieWatches (s : State) (d line : Nat) : Bool :=
  s.allWarps.any (fun w => w.die == d && (w.window.any (fun v => v.watch.any (fun x => x.line == line))
    || w.lanes.any (fun l => l.txActive && l.tx.rlines.contains line)))

/-- Lines in the L2 of a die. -/
def State.l2Lines (s : State) (d : Nat) : List LineRec :=
  s.lines.filter (fun r => r.of d != .i && !r.wb.any (fun h => h.val == d))

/-- Where the L2 of a die puts a line: 48 slices of 1,024 sets of 16 ways; the victim is a line that no L1 of the die watches, else
any, least recently used first, but for lines with an engine or an operation (R387, R388; DESIGN CHOICE, log entry 61). -/
def State.l2Room (s : State) (d line : Nat) : Room :=
  let others := (s.l2Lines d).filter (fun r => r.line != line)
  if others.length < 16 ∨ (s.line line).of d ≠ .i then .fits
  else
    let set := others.filter (fun r => homeSlice (r.line * 128) == homeSlice (line * 128)
      && Config.l2Hash r.line % 1024 == Config.l2Hash line % 1024)
    if set.length < 16 then .fits
    else
      let free := set.filter (fun r => r.isOpen)
      match (oldest (fun r => r.use.getD d 0) (free.filter (fun r => !s.dieWatches d r.line))).or (oldest (fun r => r.use.getD d 0) free) with
      | some v => .evict v.line
      | none => .full

/-- Lines of a home die that have a snoop-filter entry (R407). -/
def State.filterLines (s : State) (home : Nat) : List LineRec :=
  s.lines.filter (fun r => r.present != 0 && s.homeDie (r.line * 128) == home)

/-- Where a line's snoop-filter entry goes: a full set of 16 ways loses its least recently used entry, skipping lines with an operation
in progress, once hosts have given up what they hold of it (R407, R408, R422). -/
def State.filterRoom (s : State) (line : Nat) : Room :=
  let others := (s.filterLines (s.homeDie (line * 128))).filter (fun r => r.line != line)
  if others.length < 16 ∨ (s.line line).present ≠ 0 then .fits
  else
    let set := others.filter (fun r => Config.filterHash r.line % 4096 == Config.filterHash line % 4096
      && homeSlice (r.line * 128) == homeSlice (line * 128))
    if set.length < 16 then .fits
    else
      match oldest (fun r => r.lru) (set.filter (fun r => !r.shut)) with
      | none => .full
      | some v => if v.hostFree then .evict v.line else .ask v.line

/-- The L2 of a die evicts a line (R388, R412): warps of the die that watch it roll back; from the home die's M or O the lowest-numbered
die in S becomes the owner, or the data goes to memory; another die's M or O is written back, E noticed, and S leaves its presence bit
set. -/
def State.evictL2 (s : State) (d line : Nat) : State :=
  let r := s.line line
  let s1 := s.snoopDie d line
  if d = s.homeDie (line * 128) then
    let s2 := s1.leaveCopy d line
    if r.of d = .s then s2
    else
      match (List.range 4).find? (fun x => x != d && r.of x == .s) with
      | none => s2
      | some x => s2.modLine line (fun q => { q with st := q.st.set x (if (q.st.filter (· != .i)).length ≤ 1 then .m else .o) })
  else if r.of d = .s then s1.leaveCopy d line
  else s1.invalidate d line

/-- A die's L2 makes room for a line. -/
def State.l2Make (s : State) (d line : Nat) : State :=
  match s.l2Room d line with
  | .evict v => s.evictL2 d v
  | _ => s

/-- Back-invalidates a line displaced from the snoop filter at every holder in its presence vector (R408). -/
def State.displace (s : State) (line : Nat) : State :=
  (((List.range 5).filter (fun h => (s.line line).present.getLsbD h)).foldl (fun a h => a.invalidate h line) s).snoop line
    none true

/-- Enters a holder in the snoop filter (R407, R408). -/
def State.filterEnter (s : State) (h line : Nat) : State :=
  let s1 := match s.filterRoom line with
    | .evict v => s.displace v
    | _ => s
  ({ s1 with uses := s1.uses + 1 }).modLine line (fun r => { r with present := r.present ||| ((1 : BitVec 5) <<< h), lru := s1.uses })

/-! ## Copies and writes (R383 to R385, R405, R411) -/

/-- The line is used in the L2 of a die or at H, later than every other (R388; DESIGN CHOICE, log entry 59). -/
def State.usedBy (s : State) (h line : Nat) : State :=
  ({ s with uses := s.uses + 1 }).modLine line (fun r => { r with use := r.use.set h s.uses })

/-- A holder obtains a read copy, by the RdS rows of R411. Where H owns the line for a host, the other half is served without a copy
(R404, R422). -/
def State.fabRead (s : State) (h line : Nat) : State :=
  let r := s.line line
  if r.of h ≠ .i ∨ r.owner = some 4 then s.usedBy h line
  else
    let home := s.homeDie (line * 128)
    let s0 := if h < 4 then s.l2Make h line else s
    let fx : Fab := match r.owner with
      | some _ => .s
      | none => if r.holders = [] ∧ h ≠ home ∧ h ≠ 4 then .e else .s
    let s1 := (s0.modLine line (fun q => { q with
      st := (match r.owner with | some x => q.st.set x (if r.of x = Fab.e then Fab.s else Fab.o) | none => q.st).set h fx })).usedBy h line
    if h = home then s1 else s1.filterEnter h line

/-- The home die's L2 holds the line in M and every other holder, H included, loses its copy (R405, R411). `core` is the
writer's core on die `die`; a plain store keeps the writer's own L1 copy when the line is homed on its die (R384). -/
def State.fabWrite (s : State) (line die : Nat) (core : Option Nat) (plain : Bool) : State :=
  let home := s.homeDie (line * 128)
  let s1 := (List.range s.sku.dies).foldl (fun a d =>
    if d = home then a.dropL1 d line (if plain ∧ die = home then core else none) else a.leaveCopy d line) (s.l2Make home line)
  (s1.modLine line (fun r => { r with
    st := (r.st.set 4 .i).set home .m, halves := [.hi, .hi], asked := [none, none], present := 0 })).usedBy home line

/-- Lines of an L1 that are watched: from a window, or in the read set of an ACTIVE lane (R337, R346, R385). -/
def State.coreWatches (s : State) (d k line : Nat) : Bool :=
  s.allWarps.any (fun w => w.die == d && w.core == k && (w.window.any (fun v => v.watch.any (fun x => x.line == line))
    || w.lanes.any (fun l => l.txActive && l.tx.rlines.contains line)))

/-- Lines that have a way of their L1 set to themselves: those in it that are watched, and those that loads not performed yet will bring
(R331, R385). -/
def State.l1Claims (s : State) (d k set : Nat) : List Nat :=
  dedup ((((s.core d k).l1.map (·.line)).filter (fun n => n % 128 == set && s.coreWatches d k n))
    ++ (s.allWarps.filter (fun w => w.die == d && w.core == k)).flatMap (fun w =>
      (w.loads.map (fun l => l.addr / 128)).filter (fun n => n % 128 == set)))

/-- All 8 ways of the line's set are watched, so that a miss waits (R385). -/
def State.l1Shut (s : State) (d k line : Nat) : Bool :=
  !(s.core d k).l1.any (fun x => x.line == line) &&
    (let c := s.l1Claims d k (line % 128); !c.contains line && decide (8 ≤ c.length))

/-- Brings a line into a core's L1: 8 ways of 128 sets, the victim least recently used among the lines not watched (R383,
R385). The die's L2 has it (R387). DESIGN CHOICE, log entry 59. -/
def State.fillL1 (s : State) (d k line : Nat) : State :=
  let c := s.core d k
  if c.l1.any (fun x => x.line == line) then
    s.modCore d k (fun c => { c with l1 := (c.l1.filter (fun x => x.line == line)) ++ c.l1.filter (fun x => x.line != line) })
  else if (s.line line).of d = .i ∨ s.l1Shut d k line then s
  else
    let set := c.l1.filter (fun x => x.line % 128 == line % 128)
    let victim : Option Nat :=
      if set.length < 8 then none else ((set.reverse.find? (fun x => !s.coreWatches d k x.line)).map (·.line))
    let r := s.line line
    let alone := r.sharers.getD d 0 = 0
    let s1 := s.modCore d k (fun c => { c with
      l1 := { line := line, sole := alone } :: c.l1.filter (fun x => some x.line != victim) })
    let s2 := if alone then s1 else s1.modDieCores d (fun _ c =>
      { c with l1 := c.l1.map (fun x => if x.line = line then { x with sole := false } else x) })
    s2.modLine line (fun r => { r with
      sharers := r.sharers.set d (r.sharers.getD d 0 ||| ((1 : BitVec 12) <<< (k / 8)))
      sole := r.sole.set d (if alone then some k else none) })

/-- A core reads a line through its L1 and its die's L2 (R383, R411). -/
def State.touchLine (s : State) (d k line : Nat) : State := (s.fabRead d line).fillL1 d k line

/-! ## What waits at the home (R410, R414, R418, R422) -/

/-- An access of the warp waits at the home of the line: of its issuing instruction, the oldest store that it has sent, or a load issued and not
performed. -/
def Warp.awaits (w : Warp) (line : Nat) : Bool :=
  w.waitsOn == some line || (w.sent.find? (fun x => !x.posted)).any (fun x => x.space == .global && x.addr / 128 == line)
    || w.loads.any (fun x => x.addr / 128 == line)

/-- A request is still wanted: the warp waits there yet, the copy has not ended. -/
def State.reqLives (s : State) (line : Nat) (q : HomeReq) : Bool :=
  match q with
  | .acc u => (s.warp? u).any (fun w => w.awaits line)
  | .own c => (s.copy? c).isSome
  | .addl c => (s.copy? c).isSome
  | _ => true

/-- Requests that wait for a line, in arrival order (R410). -/
def State.lineQueue (s : State) (line : Nat) : List HomeReq := (s.line line).queue.filter (s.reqLives line)

/-- No request that arrived before this one waits for the line. -/
def State.inTurn (s : State) (line : Nat) (q : HomeReq) : Bool :=
  match s.lineQueue line with
  | [] => true
  | x :: _ => x == q

/-- A home slice of a die. -/
def State.slice (s : State) (d i : Nat) : Slice :=
  ((s.die d).slices.find? (fun x => x.slice == i)).getD { slice := i, retry := [] }

/-- Changes a home slice. -/
def State.modSlice (s : State) (d i : Nat) (f : Slice → Slice) : State :=
  let x := s.slice d i
  s.modDie d (fun y => { y with slices := y.slices.filter (fun z => z.slice != i) ++ [f x] })

/-- Lines of a home slice that have a record. -/
def State.sliceLines (s : State) (d i : Nat) : List LineRec :=
  s.lines.filter (fun r => homeSlice (r.line * 128) == i && s.homeDie (r.line * 128) == d)

/-- Request trackers of a home slice in use: one for each operation in progress and each request queued behind one (R418). A request that
has been answered holds none: a line's lock, or engine ownership of it (DEDUCED, log entry 77). -/
def State.trackers (s : State) (d i : Nat) : Nat :=
  (s.sliceLines d i).foldl (fun n r => n + (s.lineQueue r.line).length + r.inWork.toNat) 0

/-- A tracker is free for a new request: 64 in all, those for the retry list kept back (R418). -/
def State.trackerFree (s : State) (line : Nat) : Bool :=
  let d := s.homeDie (line * 128)
  let i := homeSlice (line * 128)
  decide (s.trackers d i + (s.slice d i).retry.length < 64)

/-- Every request that holds a tracker of a slice waits behind an engine or a lock: what those need of the slice is not refused, so that
they end (R419; DEDUCED, log entry 77). -/
def State.gridlock (s : State) (d i : Nat) : Bool :=
  (s.sliceLines d i).all (fun r => r.engine.isSome || r.lock.isSome || (!r.inWork && (s.lineQueue r.line).isEmpty))

/-- Every tracker of the line's slice is busy, so that a request served at once is refused, to come again (R418). -/
def State.trackerShut (s : State) (line : Nat) : Bool :=
  !s.trackerFree line && !s.gridlock (s.homeDie (line * 128)) (homeSlice (line * 128))

/-- A request that is served at once where it is must come again: earlier ones wait for the line, but for those that an engine's write
keeps, or every tracker is busy (R410, R418; DEDUCED, log entry 77). -/
def State.notNext (s : State) (line : Nat) : Bool :=
  ((s.line line).engine.isNone && !(s.lineQueue line).isEmpty) || s.trackerShut line

/-- A request finds every tracker busy (R418). -/
def State.refused (s : State) (line : Nat) (q : HomeReq) : Bool := !(s.lineQueue line).contains q && !s.trackerFree line

/-- A request joins the line's queue, or the retry list where every tracker is busy; a second one of the same kind is none
(R410, R418). -/
def State.joinQueue (s : State) (line : Nat) (q : HomeReq) : State :=
  let d := s.homeDie (line * 128)
  let i := homeSlice (line * 128)
  if (s.lineQueue line).contains q || (s.slice d i).retry.contains (line, q) then s
  else if s.trackerFree line then s.modLine line (fun r => { r with queue := s.lineQueue line ++ [q] })
  else s.modSlice d i (fun x => { x with retry := x.retry ++ [(line, q)] })

/-- A snoop of the line is outstanding to a holder: its acknowledgement is awaited, or a host has not answered (R417, R422). -/
def LineRec.snooping (r : LineRec) (h : Holder) : Bool := r.acks.contains h || (h == 4 && r.asked.any (·.isSome))

/-- Snoops of a line's home slice that a holder has not acknowledged (R417). -/
def State.snoopsOut (s : State) (h : Holder) (line : Nat) : Nat :=
  ((s.sliceLines (s.homeDie (line * 128)) (homeSlice (line * 128))).filter (fun r => r.snooping h)).length

/-- The home can send H a snoop for the line: it is to the same line as one outstanding, or fewer than 8 of the slice are, and no grant to
H stands without its CmpAck (R410, R417). -/
def State.canAsk (s : State) (line : Nat) : Bool :=
  (s.line line).busy != some 4 && ((s.line line).snooping 4 || decide (s.snoopsOut 4 line < 8))

/-- The home makes way for an access to bytes of a line: a Recall goes to an engine that owns it, and a back-invalidate snoop to the
hosts for the halves that the access touches, for a write both (R405, R414, R422; DEDUCED, log entry 47). -/
def State.urge (s : State) (pa n : Nat) (write : Bool) : State :=
  let r := s.line (pa / 128)
  let hit (i : Nat) : Bool := (write && r.half i != .hi) || (r.half i == .hm && overlaps pa n (128 * (pa / 128) + 64 * i) 64)
  let ask : Bool := (hit 0 || hit 1) && s.canAsk (pa / 128)
  if r.engine.isNone ∧ !ask then s
  else s.modLine (pa / 128) (fun r => { r with
    recalled := r.engine.isSome
    asked := r.asked.mapIdx (fun i a => if ask && hit i then some (write || (a.any (·.1)), (a.map (·.2)).getD s.ticks) else a) })

/-- The way is made for a line that a full snoop-filter set would lose. -/
def State.urgeFor (s : State) (r : Room) : State :=
  match r with
  | .ask v => s.urge (128 * v) 128 true
  | _ => s

/-- The way is made for the line that a full snoop-filter set would lose to this one. -/
def State.urgeRoom (s : State) (line : Nat) : State := s.urgeFor (s.filterRoom line)

/-- A room that must be waited for. -/
def Room.waits (r : Room) : Bool := match r with | .ask _ => true | .full => true | _ => false

/-- A die cannot take a read copy of a line now: its own write-back of the line is not accepted yet, or no way of its L2 or of the home's
filter can be freed. -/
def State.noRoom (s : State) (d line : Nat) : Bool :=
  (s.line line).wb.any (fun h => h.val == d) || (s.line line).of d == .i && ((decide (d < 4) && (s.l2Room d line).waits)
    || (d != s.homeDie (line * 128) && (s.filterRoom line).waits))

/-- Bytes cannot be read now by an agent: a lock or an operation keeps the line, or a host may have changed them (R410, R415, R422). -/
def State.readShut (s : State) (pa n : Nat) : Bool :=
  let r := s.line (pa / 128)
  r.shut || r.hostHas pa n

/-- A line cannot be written now at its home: an engine, a lock or an operation keeps it, or a host holds a half (R390, R410, R415,
R422; DEDUCED, log entry 47). -/
def State.writeShut (s : State) (line : Nat) : Bool :=
  let r := s.line line
  !r.isOpen || !r.hostFree || (s.l2Room (s.homeDie (line * 128)) line).waits

/-- A write that is served at once where it is cannot be now: the line's home cannot take it, or it is not its turn (R410, R418). -/
def State.writerShut (s : State) (line : Nat) : Bool := s.writeShut line || s.notNext line

/-! ## Posted stores (R283 to R287) -/

/-- Core and die of an agent (R277). -/
def State.agentPlace (s : State) (a : Agent) : Option (Nat × Option Nat) :=
  match a with
  | .thread u _ => (s.warp? u).map (fun w => (w.die, some w.core))
  | .engine d k => some (d, some k)
  | .cooper d _ => some (d, none)
  | .dispatcher d => some (d, none)
  | _ => none

/-- An agent lies within scope c (0), t (1) or d (2) of a thread of a team on a core of a die (R277). `home` is the home die of the
line accessed. -/
def State.within (s : State) (a : Agent) (scope die core gk team home : Nat) : Bool :=
  match scope with
  | 0 => s.agentPlace a == some (die, some core)
  | 1 =>
    (match a with
     | .thread u L => (s.warp? u).any (fun w => w.gk == gk && (w.lane L).team.toNat == team)
     | .engine d k => (s.core d k).copies.any (fun c => c.gk == gk && c.team == team)
     | _ => false)
  | 2 => (match a with | .remote => home == die | _ => (s.agentPlace a).any (fun x => x.1 == die))
  | _ => true

/-- A posted store is visible to an agent: its own thread's, past its visibility point for the agent, or past a fence or
barrier of a scope that the agent lies in (R277, R281, R285). -/
def State.sees (s : State) (p : Posted) (a : Agent) : Bool :=
  a == .thread p.w p.lane || p.seen.contains a
    || p.scopes.any (fun k => s.within a k p.die p.core p.gk p.team (s.homeDie p.pa))

/-- A scope of one posted store and a scope of another have agents in common: the cores are one, the teams are one, else the dies are (R277).
-/
def Posted.meets (p q : Posted) : Bool :=
  p.scopes.any (fun a => q.scopes.any (fun b =>
    if a = 0 ∧ b = 0 then p.die == q.die && p.core == q.core
    else if a = 1 ∧ b = 1 then p.gk == q.gk && p.team == q.team
    else p.die == q.die))

/-- The order of two posted stores is settled: they are of lanes of one instruction (R197), or both are visible to some agent (R283, R284;
DEDUCED, log entry 11). -/
def State.bothSeen (s : State) (p q : Posted) : Bool :=
  (p.w == q.w && p.time == q.time) || p.meets q
    || ([Agent.thread p.w p.lane, .thread q.w q.lane] ++ p.seen ++ q.seen).any (fun a => s.sees p a && s.sees q a)

/-- The posted stores that reach their package points with those picked, in issue order: each earlier one that overlaps one of them goes
before it where an agent sees both (R284; DEDUCED, log entry 11). -/
def State.pubClosure (s : State) (pick : Posted → Bool) : List Posted :=
  s.posted.foldr (fun p acc =>
    if pick p || acc.any (fun q => overlaps p.pa p.bytes.length q.pa q.bytes.length && s.bothSeen p q) then p :: acc else acc) []

/-- A posted store reaches its package point: its bytes take their place in coherence order (R283). -/
def State.publishOne (s : State) (p : Posted) : State :=
  let s1 := { s with mem := Memory.writes s.mem p.pa p.bytes, poison := clearPoison s.poison p.pa p.bytes.length,
                     posted := s.posted.filter (fun q => q.uid != p.uid) }
  (s1.fabWrite (p.pa / 128) p.die (some p.core) true).snoop (p.pa / 128) (some (p.w, p.lane)) false

/-- Posted stores reach their package points, in issue order (R283). -/
def State.publish (s : State) (pick : Posted → Bool) : State := (s.pubClosure pick).foldl State.publishOne s

/-- The homes of the posted stores picked can take them now, ahead of what waits there: an access that waits may wait for them (R287, R419;
DEDUCED, log entry 77). -/
def State.canForce (s : State) (pick : Posted → Bool) : Bool :=
  (s.pubClosure pick).all (fun p => !s.writeShut (p.pa / 128))

/-- A posted store comes after requests that wait for its line, its own warp's apart (R410, R418). -/
def State.behind (s : State) (p : Posted) : Bool :=
  (s.lineQueue (p.pa / 128)).any (fun q => q != .acc p.w) || s.trackerShut (p.pa / 128)

/-- The homes of the posted stores picked can take them now, in their turn. -/
def State.canPublish (s : State) (pick : Posted → Bool) : Bool :=
  (s.pubClosure pick).all (fun p => !s.writeShut (p.pa / 128) && !s.behind p)

/-- The homes of the posted stores picked make way for them. -/
def State.urgePosted (s : State) (pick : Posted → Bool) : State :=
  (s.pubClosure pick).foldl (fun a p => a.urge p.pa p.bytes.length true) s

/-- Warps for which a line's value changes roll back (R282, R339): those that watch it from an open window, but for the storing
thread's own. -/
def State.unwatch (s : State) (pick : Warp → Nat → Bool) (line : Nat) : State :=
  (s.warps.filter (fun w => w.window.any (fun v =>
    v.watch.any (fun x => x.line == line && (lanesOf x.lanes).any (fun L => pick w L))))).foldl (fun a w => a.rollbackWarp w.uid) s

/-- Posted stores pass their visibility points for the agents of a scope c, t or d; those that read before roll back; k and x are the
package (R282, R286). -/
def State.publishTo (s : State) (scope : Nat) (pick : Posted → Bool) : State :=
  if scope ≥ 3 then s.publish pick
  else
    let new := s.posted.filter (fun p => pick p && !p.scopes.contains scope)
    let s1 := { s with posted := s.posted.map (fun p => if pick p then { p with scopes := setPut p.scopes scope } else p) }
    new.foldl (fun a p => a.unwatch (fun w L => (w.uid, L) != (p.w, p.lane) && !s.sees p (.thread w.uid L)
      && a.within (.thread w.uid L) scope p.die p.core p.gk p.team (a.homeDie p.pa)) (p.pa / 128)) s1

/-- Posted stores of the given lanes of a warp. -/
def postedBy (u : Nat) (ls : List Nat) (p : Posted) : Bool := p.w == u && ls.contains p.lane

/-- Narrow-scope records of a line that an agent lies outside of (R287). -/
def State.outside (s : State) (line : Nat) (a : Agent) : List Narrow :=
  (s.line line).narrow.filter (fun n => a != .thread n.w n.lane
    && !s.within a n.scope n.die n.core n.gk n.team (s.homeDie (line * 128)))

/-- Posted stores that must be published before an agent outside the records reads (R287). -/
def forcedBy (l : List Narrow) (p : Posted) : Bool :=
  l.any (fun n => p.w == n.w && p.lane == n.lane && p.fences.contains n.scope && decide (p.uid ≤ n.upto))

/-- A read of a line with a narrow-scope record by an agent outside its scope stalls at the home until the fencing core has
published the posted stores that precede the fence (R287). DEDUCED, log entry 43. -/
def State.forced (s : State) (line : Nat) (a : Agent) : State :=
  match s.outside line a with
  | [] => s
  | n :: rest =>
    let l := n :: rest
    let s1 := (s.publish (forcedBy l)).modLine line (fun r => { r with narrow := r.narrow.filter (fun x => !l.contains x) })
    l.foldl (fun x m => x.count m.die m.core 14 1) s1

/-- The homes of those posted stores cannot take them now. -/
def State.forcedShut (s : State) (line : Nat) (a : Agent) : Bool :=
  match s.outside line a with
  | [] => false
  | n :: rest => !s.canForce (forcedBy (n :: rest))

/-- A store of a thread in a line leaves a record for each narrow scope of its fences that posted stores of it precede (R287). -/
def State.markNarrow (s : State) (w : Warp) (L line : Nat) : State :=
  let mine := s.posted.filter (postedBy w.uid [L])
  if mine.isEmpty then s
  else
    let recs := (List.range 3).filterMap (fun k => ((mine.filter (fun p => p.fences.contains k)).getLast?).map (fun p =>
      ({ w := w.uid, lane := L, die := w.die, core := w.core, gk := w.gk, team := (w.lane L).team.toNat, scope := k, upto := p.uid } : Narrow)))
    if recs.isEmpty then s
    else s.modLine line (fun r => { r with narrow := r.narrow.filter (fun n => !(n.w == w.uid && n.lane == L)) ++ recs })

/-- The byte an agent reads at a physical address (R281): the latest store visible to it. -/
def State.byteFor (s : State) (a : Agent) (pa : Nat) : Byte :=
  s.posted.foldl (fun b p =>
    if p.pa ≤ pa ∧ pa < p.pa + p.bytes.length ∧ s.sees p a then p.bytes.getD (pa - p.pa) b else b) (Memory.read s.mem pa)

/-- An agent that is no thread cannot read the bytes now: they cannot be read, or it is not its turn (R287, R410, R418, R422). -/
def State.agentShut (s : State) (a : Agent) (pa n : Nat) : Bool :=
  s.readShut pa n || s.forcedShut (pa / 128) a || s.notNext (pa / 128)

/-- The way is made for its read. -/
def State.urgeRead (s : State) (a : Agent) (pa n : Nat) : State :=
  (s.urgePosted (forcedBy (s.outside (pa / 128) a))).urge pa n false

/-! ## Writes -/

/-- The thread that an agent is. -/
def writerOf : Agent → Option (Nat × Nat)
  | .thread u L => some (u, L)
  | _ => none

/-- A write is applied at the home (R405): posted stores it overlaps and whose visibility its agent has met go before it
(R284); the bytes change; every other copy is invalidated; watchers roll back. `plain` is false for atomics, commits, engine
and host writes. -/
def State.homeWrite (s : State) (a : Agent) (die : Nat) (core : Option Nat) (plain : Bool) (pa : Nat)
    (bs : List Byte) : State :=
  let s0 := s.publish (fun p => overlaps p.pa p.bytes.length pa bs.length && s.sees p a)
  let s1 := { s0 with mem := Memory.writes s0.mem pa bs, poison := clearPoison s0.poison pa bs.length }
  (s1.fabWrite (pa / 128) die core plain).snoop (pa / 128) (writerOf a) false

/-- An engine of the package, or one that stands for another device's, writes bytes of global memory: whole granules at once (R208).
Where it owns the lines, every transaction that holds one in a set aborts (R289). -/
def State.engWrite (s : State) (a : Agent) (d : Nat) (own : Bool) (cells : List Host.Cell) : State :=
  let fin := finalBytes cells
  let s1 := if own then (dedup (fin.map (fun c => c.1 / 128))).foldl (fun x l => x.snoop l none true) s else s
  let put (x : State) (pa : Nat) (bs : List Byte) : State := x.homeWrite a d none false pa bs
  (dedup (fin.map (fun c => c.1 / 8))).foldl (fun x g =>
    let cs := fin.filter (fun c => c.1 / 8 == g)
    if cs.length = 8 then put x (8 * g) (cs.map (·.2)) else cs.foldl (fun x c => put x c.1 [c.2]) x) s1

/-- A copy can write a line: it owns it or the line is free for it, no lock or operation keeps it, no host holds a half (R390, R410,
R415, R422). -/
def State.lineFor (s : State) (uid line : Nat) : Bool :=
  let r := s.line line
  (match r.engine with | some u => u == uid | none => s.inTurn line (.own uid) || s.inTurn line (.addl uid)) && !r.shut && r.hostFree && !s.trackerShut line
    && !(s.l2Room (s.homeDie (line * 128)) line).waits

/-- The way is made for the lines of a copy that it owns or that no engine does. -/
def State.urgeLines (s : State) (uid : Nat) (ls : List Nat) : State :=
  (ls.filter (fun n => !s.lineFor uid n && ((s.line n).engine.isNone || (s.line n).engine == some uid))).foldl
    (fun a n => a.urge (128 * n) 128 true) s

/-- Releases the lines of a copy: the next request in arrival order has each (R390, R410). -/
def State.releaseLines (s : State) (uid : Nat) (pick : Nat → Bool) : State :=
  { s with lines := s.lines.map (fun r =>
      if pick r.line then
        { r with queue := r.queue.filter (fun q => q != .own uid && q != .addl uid), engine := r.engine.bind (fun u => if u = uid then none else some u)
                 recalled := r.recalled && r.engine != some uid }
      else r) }

/-- Writes bytes of array memory of a core, clearing poison of granules written whole; watchers roll back (R315, R339). -/
def State.arrayWrite (s : State) (u : Option (Nat × Nat)) (d k off : Nat) (bs : List Byte) : State :=
  (s.modCore d k (fun c => { c with
    array := bs.zipIdx.foldl (fun m bi => cellPut m (off + bi.2) bi.1) c.array
    arrPoison := clearPoison c.arrPoison off bs.length })).snoop (arrayLine d k off) u false

/-- The byte of array memory of a core at 12,288 p + offset; undefined until written (R313, DESIGN CHOICE, log entry 5). -/
def Core.arrayByte (c : Core) (off : Nat) : Byte :=
  (cellGet c.array off).getD (Config.freeByte ((c.units.getD (off / 12288) CimUnit.init).seed) (off % 12288))

/-- A store of a warp's lane: a plain one performs (R331), at the home or in array memory; a posted one enters the posted path (R283).
A store that follows a narrow fence leaves its record on the line (R287). -/
def State.perform (s : State) (w : Warp) (st : StoreRec) : State :=
  match st.space with
  | .array d k =>
    (s.markNarrow w st.lane (arrayLine d k st.addr)).arrayWrite (some (w.uid, st.lane)) d k st.addr st.bytes
  | .global =>
    let s0 := s.markNarrow w st.lane (st.addr / 128)
    if st.posted then
      let (n, s1) := s0.fresh
      { s1 with posted := s1.posted ++ [{ uid := n, w := w.uid, lane := st.lane, die := w.die, core := w.core, gk := w.gk,
                                          team := (w.lane st.lane).team.toNat, pa := st.addr, bytes := st.bytes, seen := [],
                                          scopes := [], fences := [], time := st.time }] }
    else s0.homeWrite (.thread w.uid st.lane) w.die (some w.core) true st.addr st.bytes

/-- A posted store of a lane waits in the core for an earlier plain access of the lane that has not performed (R283). -/
def Warp.holdsPosted (w : Warp) (kept : List StoreRec) (L : Nat) : Bool :=
  kept.any (fun x => x.lane == L) || w.loads.any (fun l => l.lane == L && !l.spec)

/-- A posted store waits in the core: for an access of its lane, for an overlapping one of a lower lane of its instruction (R197), or while
a transaction holds its line (R227, R283; DEDUCED, log entry 62). -/
def State.holdsPosted (s : State) (w : Warp) (kept : List StoreRec) (st : StoreRec) : Bool :=
  w.holdsPosted kept st.lane || (s.line (st.addr / 128)).lock.isSome
    || kept.any (fun x => x.posted && x.time == st.time && overlaps x.addr x.bytes.length st.addr st.bytes.length)

/-- Posted stores that nothing holds in the core enter the posted path (R283, R406). -/
def State.settlePosted (s : State) (w : Warp) : State × Warp :=
  if w.sent.any (·.posted) then
    let x := w.sent.foldl (fun (x : State × List StoreRec) st =>
      if st.posted && !x.1.holdsPosted w x.2 st then (x.1.perform w st, x.2) else (x.1, x.2 ++ [st])) (s, [])
    (x.1, { w with sent := x.2 })
  else (s, w)

/-! ## Waiting at the home (R206, R227, R289, R410, R422) -/

/-- An access of a lane to the line waits: an engine owns it, another lane's transaction holds it, an operation is in progress, or an
earlier request waits for it, or the home has no tracker for it. -/
def State.lineHeld (s : State) (u L line : Nat) : Bool :=
  let r := s.line line
  r.engine.isSome || r.inWork || (match r.lock with | some x => x != (u, L) | none => !s.inTurn line (.acc u) || s.refused line (.acc u))

/-- The serial attempt of another lane of the same warp holds the line (R227). -/
def State.siblingLock (s : State) (u L line : Nat) : Bool :=
  match (s.line line).lock with
  | some x => x.1 == u && x.2 != L
  | none => false

/-- A load of a lane waits at the home, for room, or for a forced publish (R287, R388, R422). -/
def State.loadBusy (s : State) (u L die pa n : Nat) : Bool :=
  s.lineHeld u L (pa / 128) || (s.line (pa / 128)).hostHas pa n || s.forcedShut (pa / 128) (.thread u L) || s.noRoom die (pa / 128)

/-- A store of a lane to the line waits at the home: a host holds a half, or no way of its L2 is free (R388, R422). -/
def State.storeBusy (s : State) (u L line : Nat) : Bool :=
  s.lineHeld u L line || !(s.line line).hostFree || (s.l2Room (s.homeDie (line * 128)) line).waits

/-- An atomic of a lane waits at the home. -/
def State.atomBusy (s : State) (u L line : Nat) : Bool := s.storeBusy u L line || s.forcedShut line (.thread u L)

/-- What a waiting access asks of the line's home. -/
def State.urgeAccess (s : State) (u L pa n : Nat) (write : Bool) : State :=
  ((s.urge pa n write).urgePosted (forcedBy (s.outside (pa / 128) (.thread u L)))).urgeRoom (pa / 128)

/-- An access of a warp waits at the home of a line: it takes its place in the line's queue, and the way is made for it (R410, R414,
R422). -/
def State.awaitLine (s : State) (u L pa n : Nat) (write : Bool) : State :=
  (s.joinQueue (pa / 128) (.acc u)).urgeAccess u L pa n write

/-- The issuing instruction of a warp waits at the home of a line. -/
def State.awaitHome (s : State) (u L pa n : Nat) (write : Bool) : State :=
  let line := pa / 128
  let s0 := if (s.warp? u).any (fun w => w.awaits line) then s
    else s.modLine line (fun r => { r with queue := r.queue.filter (· != .acc u) })
  (s0.modWarp u (fun w => { w with waitsOn := some line })).awaitLine u L pa n write

/-! ## Stores that leave the core (R331, R406) -/

/-- The home cannot apply a store yet. -/
def State.storeWaits (s : State) (w : Warp) (st : StoreRec) : Bool := st.space == .global && s.storeBusy w.uid st.lane (st.addr / 128)

/-- A posted store of a warp that is not speculative enters the posted path, or waits in the core for its lane's accesses, for one of a lower
lane and for a locked line (R197, R227, R283). -/
def State.sendPosted (s : State) (w : Warp) (st : StoreRec) : State × Warp :=
  if s.holdsPosted w w.sent st then (s, { w with sent := w.sent ++ [st] }) else (s.perform w st, w)

/-- Stores that go to their home in one message: those that the lanes of one instruction make in one line (R409). -/
def StoreRec.with (a b : StoreRec) : Bool :=
  a == b || (a.space == .global && b.space == .global && !a.posted && !b.posted && a.spawn.isNone && b.spawn.isNone
    && a.time == b.time && a.addr / 128 == b.addr / 128)

/-- The plain stores of an instruction of a warp that is not speculative leave the core, those of one line together (R409). They perform at once
in lane order, or wait in `sent` from the first that its home cannot take; all wait where an earlier access still does, or the model defers
them (R406; DESIGN CHOICE, log entry 4). -/
def State.sendStores (s : State) (w : Warp) (sts : List StoreRec) : State × Warp :=
  if sts = [] then (s, w)
  else
    let s1 := { s with defer := s.defer.drop 1 }
    if s.defer.headD false ∨ w.sent.any (fun x => !x.posted) ∨ w.cmpWait ∨ w.loadsDue then (s1, { w with sent := w.sent ++ sts })
    else
      let r := sts.foldl (fun (x : State × List StoreRec × List StoreRec) st =>
        if x.2.1.any (·.with st) ∨ (x.2.2 = [] ∧ !x.1.storeWaits w st) then (x.1.perform w st, x.2.1 ++ [st], x.2.2)
        else (x.1, x.2.1, x.2.2 ++ [st])) (s1, [], [])
      (match r.2.2 with
        | [] => r.1
        | st :: _ => r.1.awaitLine w.uid st.lane st.addr st.bytes.length true, { w with sent := w.sent ++ r.2.2 })

/-! ## Reads of a thread -/

/-- The byte of a lane's own stores that have issued and not performed, newest last: sent ones, then the window's buffer,
then the transaction's (R196, R210, R223). -/
def Warp.ownByte (w : Warp) (L : Nat) (sp : Space) (a : Nat) : Option Byte :=
  let pick (acc : Option Byte) (st : StoreRec) : Option Byte :=
    if st.lane = L ∧ st.space = sp ∧ st.addr ≤ a ∧ a < st.addr + st.bytes.length then st.bytes[a - st.addr]? else acc
  let b1 := w.sent.foldl pick none
  let b2 := match w.window with | some win => win.buf.foldl pick b1 | none => b1
  if sp = .global then
    (w.lane L).tx.wset.foldl (fun acc c => if c.1 = a then some c.2 else acc) b2
  else b2

/-- Little-endian value of `n` bytes of global memory as lane L of a warp loads it (R196, R281). -/
def State.loadVal (s : State) (w : Warp) (L pa n : Nat) : Nat :=
  valAt (fun a => (w.ownByte L .global a).getD (s.byteFor (.thread w.uid L) a)) pa n

/-- A posted store that the thread sees gives the byte (R281). -/
def State.postedByte (s : State) (u L a : Nat) : Bool :=
  s.posted.any (fun p => decide (p.pa ≤ a) && decide (a < p.pa + p.bytes.length) && s.sees p (.thread u L))

/-- A load of the bytes meets poison: a poisoned granule has a byte that no store visible to the lane replaces (R208, R281). -/
def State.loadPoison (s : State) (w : Warp) (L pa n : Nat) : Bool :=
  s.poisoned pa n && (List.range n).any (fun i =>
    s.poison.contains ((pa + i) / 8) && (w.ownByte L .global (pa + i)).isNone && !s.postedByte w.uid L (pa + i))

/-- A store of the bytes writes part of a poisoned granule that the lane's earlier stores do not replace (R208). It is
asked at the store's issue alone (DESIGN CHOICE, log entry 40). -/
def State.storePoison (s : State) (w : Warp) (L pa n : Nat) : Bool :=
  partPoison s.poison pa n && (granules pa n).any (fun g =>
    partPoison (s.poison.filter (· == g)) pa n && (List.range 8).any (fun i =>
      (w.ownByte L .global (8 * g + i)).isNone && !s.postedByte w.uid L (8 * g + i)))

/-! ## Loads that have not performed (R331) -/

/-- The words of a value of `n` bytes in registers, sign-extended from a b8 or b16 load (R194). -/
def loadWords (n : Nat) (signed : Bool) (v : Nat) : List Word :=
  if n ≤ 4 then [if signed then (BitVec.ofNat (8 * n) v).signExtend 32 else BitVec.ofNat 32 v]
  else (List.range (n / 4)).map (fun i => BitVec.ofNat 32 (v / 2 ^ (32 * i)))

/-- Registers that a value of `n` bytes takes. -/
def regsOf (n : Nat) : Nat := if n ≤ 4 then 1 else n / 4

/-- The lane with a loaded value of `n` bytes in its place. -/
def LoadDst.put (d : LoadDst) (n v : Nat) (l : Lane) : Lane :=
  match d with
  | .regs k signed => (loadWords n signed v).zipIdx.foldl (fun a x => a.setReg (k + x.2) x.1) l
  | .zero p => l.setPred p (v == 0)

/-- The load writes the register with this number of the pending list (R263). -/
def LoadRec.covers (r : LoadRec) (k : Nat) : Bool :=
  match r.dst with
  | .regs d _ => decide (d ≤ k) && decide (k < d + regsOf r.n)
  | .zero p => p.val + 0xC0 == k

/-- A load performs: its value is bound for good, in what a rollback to a later point restores too (R331, R340). -/
def Warp.loadDone (w : Warp) (r : LoadRec) (v : Nat) : Warp :=
  if w.loads.contains r then
    let put (ls : List Lane) : List Lane := ls.modify r.lane (r.dst.put r.n v)
    let sv (x : Save) : Save := if !r.spec ∨ r.seq < x.seq then { x with lanes := put x.lanes } else x
    { w with lanes := put w.lanes, loads := w.loads.erase r
             window := w.window.map (fun x => { x with save := sv x.save, points := x.points.map sv }) }
  else w

/-- The value of a load that performs now. -/
def State.loadNow (s : State) (u : Nat) (r : LoadRec) : Nat := valAt (s.byteFor (.thread u r.lane)) r.addr r.n

/-- The data of a load returns to its core; it waits where the home cannot serve it (R331). -/
def State.performLoad (s : State) (w : Warp) (r : LoadRec) : State :=
  if s.loadBusy w.uid r.lane w.die r.addr r.n then s.awaitLine w.uid r.lane r.addr r.n false
  else
    let s1 := (s.forced (r.addr / 128) (.thread w.uid r.lane)).touchLine w.die w.core (r.addr / 128)
    s1.modWarp w.uid (fun x => x.loadDone r (s1.loadNow w.uid r))

/-- Loads of the granules that have not performed do so first: the error strikes after them. -/
def State.bindLoads (s : State) (gs : List Nat) : State :=
  (s.allWarps.flatMap (fun w => (w.loads.filter (fun r => (granules r.addr r.n).any (fun g => gs.contains g))).map (fun r => (w.uid, r)))).foldl
    (fun a x =>
      let b := if a.forcedShut (x.2.addr / 128) (.thread x.1 x.2.lane) then a else a.forced (x.2.addr / 128) (.thread x.1 x.2.lane)
      b.modWarp x.1 (fun w => w.loadDone x.2 (b.loadNow x.1 x.2))) s

/-- Marks granules of physical memory poisoned (R442). -/
def State.poisonMem (s : State) (gs : List Nat) : State :=
  let s1 := s.bindLoads gs
  { s1 with poison := gs.foldl setPut s1.poison }

end Sys2Proof.Machine
end

