-- ==== Sys2Proof/Machine/Xlat.lean ====
section
/-! DEFINITION. Translation: table walks, TLBs, permissions (R391 to R395, R401). -/
namespace Sys2Proof.Machine

open Sys2Proof

/-! ## Walks -/

/-- Outcome of a walk (R392). -/
inductive WalkRes where
  | ok (t : TlbEntry)
  /-- A translation fault; the walk met a malformed entry. -/
  | fault (malformed : Bool)
  /-- A migration fault (R401). -/
  | mig
deriving DecidableEq, Repr

/-- Reserved bits of an entry are zero (R392). -/
def pteReservedOk (v : Nat) : Bool := bits v 55 52 == 0 && bits v 15 7 == 0

/-- Address field of an entry: PA[51:16] in place. -/
def pteAddr (v : Nat) : Nat := bits v 51 16 * 65536

/-- A leaf entry as a translation. -/
def pteLeaf (asid page : Nat) (big : Bool) (v : Nat) : TlbEntry :=
  { asid := asid, page := page, big := big, frame := pteAddr v, r := bits v 2 2 == 1, w := bits v 3 3 == 1,
    x := bits v 4 4 == 1, io := bits v 5 5 == 1 }

/-- Walks a table at a level from its base; `n` is the level (R392). -/
def walkFrom (s : State) (asid va : Nat) : Nat → Nat → WalkRes
  | 0, base =>
    let v := s.memVal (base + 8 * bits va 28 16) 8
    if bits v 0 0 = 0 then (if bits v 6 6 = 1 then .mig else .fault false)
    else if pteReservedOk v = false ∨ bits v 1 1 = 0 then .fault true
    else .ok (pteLeaf asid (bits va 54 16) false v)
  | n + 1, base =>
    let i := if n = 0 then bits va 41 29 else bits va 54 42
    let v := s.memVal (base + 8 * i) 8
    if bits v 0 0 = 0 then (if bits v 6 6 = 1 then .mig else .fault false)
    else if pteReservedOk v = false then .fault true
    else if bits v 1 1 = 1 then
      if n ≠ 0 ∨ bits v 28 16 ≠ 0 then .fault true
      else .ok (pteLeaf asid (bits va 54 29 * 8192) true v)
    else if bits v 6 2 ≠ 0 then .fault true
    else walkFrom s asid va n (pteAddr v)

/-- Walks the tables of an address space from the ASID table (R392, R393). -/
def walk (s : State) (asid va : Nat) : WalkRes :=
  let e := s.mmu.atbase.toNat + 16 * asid
  let v := s.memVal e 8
  if bits v 0 0 = 0 then .fault false
  else if bits v 15 1 ≠ 0 ∨ bits v 63 52 ≠ 0 ∨ s.memVal (e + 8) 8 ≠ 0 then .fault true
  else walkFrom s asid va 2 (pteAddr v)

/-- Physical addresses of the words that a walk of a table at a level reads, in order (R392). -/
def walkWords (s : State) (va : Nat) : Nat → Nat → List Nat
  | 0, base => [base + 8 * bits va 28 16]
  | n + 1, base =>
    let a := base + 8 * (if n = 0 then bits va 41 29 else bits va 54 42)
    let v := s.memVal a 8
    if bits v 1 0 = 1 then a :: walkWords s va n (pteAddr v) else [a]

/-- Physical addresses of the words that a walk reads, in order (R392, R393). -/
def walkReads (s : State) (asid va : Nat) : List Nat :=
  let e := s.mmu.atbase.toNat + 16 * asid
  let v := s.memVal e 8
  if bits v 0 0 = 0 then [e] else e :: (e + 8) :: walkWords s va 2 (pteAddr v)

/-- A walker of a die reads the tables coherently through the L2, as an agent within the package's scopes alone: none where a word
cannot be read yet, for which the way is made (R287, R394, R422; DEDUCED, log entry 64). -/
def State.walkFor (s : State) (d asid va : Nat) : Option WalkRes × State :=
  let ws := walkReads s asid va
  let r := ws.foldl (fun (x : State × Option Nat) a =>
    if x.2.isSome then x
    else if x.1.agentShut .hdie a 8 || x.1.noRoom d (a / 128) then (x.1, some a)
    else ((x.1.forced (a / 128) .hdie).fabRead d (a / 128), none)) (s, none)
  match r.2 with
  | some a => (none, (s.urgeRead .hdie a 8).urgeFor (r.1.filterRoom (a / 128)))
  | none => if walkReads r.1 asid va = ws then (some (walk r.1 asid va), r.1) else (none, r.1)

/-- Physical address of a leaf entry's level-0 or level-1 slot for an address, for the migration engine (R400). -/
def pteSlot (s : State) (asid va : Nat) : Option Nat :=
  let v := s.memVal (s.mmu.atbase.toNat + 16 * asid) 8
  if bits v 0 0 = 0 then none
  else
    let v2 := s.memVal (pteAddr v + 8 * bits va 54 42) 8
    if bits v2 1 0 ≠ 1 then none
    else
      let v1 := s.memVal (pteAddr v2 + 8 * bits va 41 29) 8
      if bits v1 1 0 ≠ 1 then none else some (pteAddr v1 + 8 * bits va 28 16)

/-! ## TLBs -/

/-- An entry translates an address of an address space. -/
def TlbEntry.covers (t : TlbEntry) (asid va : Nat) : Bool :=
  t.asid == asid && (if t.big then bits va 54 29 * 8192 == t.page else bits va 54 16 == t.page)

/-- The physical address an entry gives. -/
def TlbEntry.pa (t : TlbEntry) (va : Nat) : Nat := t.frame + va % (if t.big then 2 ^ 29 else 65536)

/-- Outcome of a translation. -/
inductive XRes where
  | ok (pa : Nat) (t : TlbEntry)
  | fault (malformed mig : Bool)
  /-- The physical address is not populated: as if the backing store had failed (R380). -/
  | backing
  /-- The walk waits: a word of the tables cannot be read yet (R394). -/
  | held
deriving DecidableEq, Repr

/-- Puts an entry in front of a TLB of `n` entries. -/
def tlbPut (l : List TlbEntry) (t : TlbEntry) (n : Nat) : List TlbEntry := (t :: l).take n

/-- Puts an entry into the L2 TLB: 4,096 sets of 8 ways, the set by the page number (R391, DESIGN CHOICE, log entry 10). -/
def l2tlbPut (l : List TlbEntry) (t : TlbEntry) : List TlbEntry :=
  let same := l.filter (fun x => x.page % 4096 == t.page % 4096)
  let rest := l.filter (fun x => x.page % 4096 != t.page % 4096)
  t :: (same.take 7 ++ rest)

/-- Finishes a translation with an entry. -/
def State.xlatDone (s : State) (t : TlbEntry) (va : Nat) : XRes :=
  if s.populated (t.pa va) then .ok (t.pa va) t else .backing

/-- Translates an address through the L2 TLB of die d, then by a walk; entries are made from valid tables alone (R391). The launch unit
and the remote transport have no L1 TLB. DEDUCED, log entry 60. -/
def State.translateL2 (s : State) (d asid va : Nat) : XRes × State :=
  match (s.die d).l2tlb.find? (fun t => t.covers asid va) with
  | some t => (s.xlatDone t va, s)
  | none =>
    match s.walkFor d asid va with
    | (some (.ok t), s1) => (s1.xlatDone t va, s1.modDie d (fun x => { x with l2tlb := l2tlbPut x.l2tlb t }))
    | (some (.fault m), s1) => (.fault m false, s1)
    | (some .mig, s1) => (.fault false true, s1)
    | (none, s1) => (.held, s1)

/-- Translates an address for core k of die d: its L1 TLB, then the die's L2 TLB and a walk (R391). -/
def State.translate (s : State) (d k asid va : Nat) : XRes × State :=
  match (s.core d k).tlb.find? (fun t => t.covers asid va) with
  | some t => (s.xlatDone t va, s)
  | none =>
    match s.translateL2 d asid va with
    | (.ok pa t, s1) => (.ok pa t, s1.modCore d k (fun c => { c with tlb := tlbPut c.tlb t 96 }))
    | (.backing, s1) =>
      (.backing, match (s1.die d).l2tlb.find? (fun t => t.covers asid va) with
        | some t => s1.modCore d k (fun c => { c with tlb := tlbPut c.tlb t 96 })
        | none => s1)
    | x => x

/-- DETAIL of the PROT that a page's permissions raise for an access, if any (R192 case 5, R263, R392). -/
def TlbEntry.refuses (t : TlbEntry) : Access → Option Nat
  | .read => if t.r then none else some 2
  | .write => if t.w then none else some 3
  | .execute => if t.io then some 5 else if t.x then none else some 4
  | .atomic => if t.io then some 5 else if !t.r then some 2 else if !t.w then some 3 else none

/-! ## Outstanding faults (R395) -/

/-- Notes a translation fault: one record per address space and page while it is outstanding, describing the agent that met
it first; later agents only wait (R395). A migration fault stands apart: nothing but the end of the move answers it (R401). -/
def State.noteFault (s : State) (f : PageFault) (wt : Waiter) : State :=
  if s.mmu.faults.any (fun x => x.asid == f.asid && x.page == f.page && x.mig == f.mig) then
    { s with mmu := { s.mmu with faults := s.mmu.faults.map (fun x =>
        if x.asid = f.asid ∧ x.page = f.page ∧ x.mig = f.mig then
          { x with waiters := if x.waiters.contains wt then x.waiters else x.waiters ++ [wt] }
        else x) } }
  else { s with mmu := { s.mmu with faults := s.mmu.faults ++ [{ f with waiters := [wt] }] } }

/-- The record of a fault that an agent at core k of die d meets. -/
def mkFault (asid va : Nat) (acc : Access) (source d k : Nat) (malformed mig : Bool) : PageFault :=
  { asid := asid, page := bits va 54 16, acc := acc, source := source, malformed := malformed, core := k, die := d,
    entered := false, mig := mig, waiters := [] }

end Sys2Proof.Machine
end

