-- ==== Sys2Proof/Machine/Team.lean ====
section
/-! DEFINITION. The error queue (R444 to R447) and the end of teams and warps by retirement, failure or kill (R35, R271, R275,
R358, R443). -/
namespace Sys2Proof.Machine

open Sys2Proof

/-! ## Error queue -/

/-- The 128 bytes of a record (R445). -/
def ErrRec.bytes (r : ErrRec) : List Byte :=
  toBytes 4 (r.kind + r.code * 2 ^ 8 + r.die * 2 ^ 16 + r.core * 2 ^ 20) ++ toBytes 4 r.grid.toNat ++ toBytes 4 r.team.toNat
    ++ toBytes 4 r.unit.toNat ++ toBytes 8 r.addr.toNat ++ toBytes 8 r.time.toNat ++ List.replicate 32 0
    ++ (r.data ++ List.replicate 64 0).take 64

/-- The ring has no space: its indices run modulo 4,096 and are equal when it is empty (R444, DEDUCED, log entry 12). -/
def State.errFull (s : State) : Bool := (s.err.eqtail.toNat + 1) % 4096 == s.err.eqhead.toNat % 4096

/-- Physical address of the ring's next record (R444). -/
def State.errSlot (s : State) : Nat := s.err.eqbase.toNat + 128 * (s.err.eqtail.toNat % 4096)

/-- The ring takes no record now: it is full, or its line cannot be written yet. -/
def State.errShut (s : State) : Bool := s.errFull || s.writerShut (s.errSlot / 128)

/-- Writes a record into the ring (R444). -/
def State.errPut (s : State) (r : ErrRec) : State :=
  let s1 := s.homeWrite .hdie 0 none false s.errSlot r.bytes
  { s1 with err := { s1.err with eqtail := BitVec.ofNat 64 ((s.err.eqtail.toNat + 1) % 4096) } }

/-- Records a die holds; 7 is the H-die. -/
def State.errHeld (s : State) (d : Nat) : List ErrRec := if d < 4 then (s.die d).heldErr else s.err.held

/-- An agent of a die can report: the die's hold has space, and no agent of the die waits already (R444). -/
def State.errRoom (s : State) (d : Nat) : Bool := decide ((s.errHeld d).length < 256) && s.err.waiting.all (fun r => r.die != d)

/-- A record awaits space with its die (R444). -/
def State.errHold (s : State) (r : ErrRec) : State :=
  let s1 := { s with err := { s.err with order := s.err.order ++ [r.die] } }
  if r.die < 4 then s1.modDie r.die (fun d => { d with heldErr := d.heldErr ++ [r] })
  else { s1 with err := { s1.err with held := s1.err.held ++ [r] } }

/-- Reports a record: into the ring, or into the hold of its die where the ring cannot take it or earlier records of any die wait
(R444, R449). With the hold full the reporting agent waits (DESIGN CHOICE, log entry 72). -/
def State.report (s : State) (r : ErrRec) : State :=
  if !s.errRoom r.die then { s with err := { s.err with waiting := s.err.waiting ++ [r] } }
  else if s.errShut || !s.err.order.isEmpty then s.errHold r
  else s.errPut r

/-- The agents of a die that wait at the point of reporting report where the die's hold has space again (R444). -/
def State.errResume (s : State) (d : Nat) : State :=
  match s.err.waiting.find? (fun r => r.die == d) with
  | some r => if (s.errHeld d).length < 256 then ({ s with err := { s.err with waiting := s.err.waiting.erase r } }).errHold r else s
  | none => s

/-- Records that have not reached the ring (R444). -/
def State.errLate (s : State) : List ErrRec := s.dies.flatMap (fun d => d.heldErr) ++ s.err.held ++ s.err.waiting

/-- An agent of a core waits at the point of reporting (R444). -/
def State.mustReport (s : State) (d k : Nat) : Bool := s.err.waiting.any (fun r => r.die == d && r.core == k)

/-- A record with the fields every kind fills. -/
def State.mkErr (s : State) (kind code die core : Nat) (grid team unit : Word) (addr : DWord) : ErrRec :=
  { kind := kind, code := code, die := die, core := core, grid := grid, team := team, unit := unit, addr := addr,
    time := s.timeReg, data := [] }

/-- TEAM of a record where no team applies (R445). -/
def noTeam : Word := 0xFFFFFFFF

/-- GRID field of the records about a grid. -/
def State.gridId (s : State) (gk : Nat) : Word := (s.recOf gk).grid

/-- Counts `n` correctable errors of a store of a core (R447). -/
def State.countCorr (s : State) (d k store n : Nat) : State :=
  if n = 0 then s
  else
    let l := s.err.corr
    let l1 := if l.any (fun x => x.1 == d && x.2.1 == k && x.2.2.1 == store) then
        l.map (fun x => if x.1 = d ∧ x.2.1 = k ∧ x.2.2.1 = store then (d, k, store, x.2.2.2.1 + n, x.2.2.2.2) else x)
      else l ++ [(d, k, store, n, none)]
    { s with err := { s.err with corr := l1 } }

/-! ## Resources -/

/-- Reduces the deficit of a team's queue by its charge (R358), whatever its size (DESIGN CHOICE, log entry 80). -/
def State.charge (s : State) (t : Team) : State :=
  match s.grid? t.gk with
  | none => s
  | some g =>
    let c : Int := (((s.die t.die).cycles - t.placedAt) * (if t.twin then 2 else 1) : Nat)
    { s with lu := { s.lu with queues := s.lu.queues.modify g.queue (fun q => { q with deficit := q.deficit - c }) } }

/-- Cores of a team: its core, or both cores of its pair. -/
def Team.cores (t : Team) : List Nat := if t.twin then [t.core, t.core + 1] else [t.core]

/-- The errors that the verification of macro p finds (R328): the granules whose check fails and that the scrub did not record
as poisoned, and those in which an LDA found a correctable error. -/
def Core.verifyErrs (c : Core) (p : Nat) (u : CimUnit) : List Nat :=
  let bad := (c.arrPoison.filter (fun g => g / 1536 == p)).map (· % 1536)
  dedup (u.soft ++ u.ldaErr ++ bad.filter (fun g => !u.scrubbed.contains g))

/-- Reports the errors that the verification of a macro finds (R247, R328). -/
def State.reportSuspect (s : State) (t : Team) (k p : Nat) (u : CimUnit) : State :=
  ((s.core t.die k).verifyErrs p u).foldl (fun a g =>
    a.report (a.mkErr 0x08 4 t.die k (a.gridId t.gk) (BitVec.ofNat 32 t.idx)
      (BitVec.ofNat 32 (p * 2 ^ 8 + (8 * g / 32) * 2 ^ 16))
      (BitVec.ofNat 64 (12288 * (p - t.p0 + (if k = t.core then 0 else t.units)) + 8 * g)))) s

/-- Macros of a core that belong to a team, with their index. -/
def Core.unitsOf (c : Core) (gk idx : Nat) : List (Nat × CimUnit) :=
  (c.units.zipIdx.map (fun x => (x.2, x.1))).filter (fun x => x.2.owner == some (gk, idx))

/-- Verifies the macros of a team in compute residence, with errors to the error queue only; they are in storage mode then (R325, R328). -/
def State.verifyTeam (s : State) (t : Team) : State :=
  t.cores.foldl (fun a k =>
    let us := ((a.core t.die k).unitsOf t.gk t.idx).filter (fun x => x.2.mode == .compute)
    let a1 := us.foldl (fun b pu => b.reportSuspect t k pu.1 pu.2) a
    a1.modCore t.die k (fun c => { c with
      units := c.units.map (fun u => if u.owner = some (t.gk, t.idx) ∧ u.mode = .compute then { u with mode := .storage } else u) })) s

/-- Frees the macros and the matrix ownership of a team (R325). -/
def State.freeArray (s : State) (t : Team) : State :=
  t.cores.foldl (fun a k => a.modCore t.die k (fun c => { c with
      units := c.units.map (fun u => if u.owner = some (t.gk, t.idx) then { CimUnit.init with seed := u.seed } else u)
      mat := if c.mat = some (t.gk, t.idx) then none else c.mat })) s

/-! ## Ending warps and teams -/

/-- Locks and the serial permit of lanes that end are free again (R227, R271). -/
def State.releaseLanes (s : State) (u : Nat) (ls : List Nat) : State := ls.foldl (fun a L => a.releaseTx u L) s

/-- The context, registers and banks of a warp are freed and nothing of it stays (R41, R305); locks of its lanes are released. The
stores it has issued have performed. -/
def State.endWarp (s : State) (u : Nat) : State :=
  match s.warp? u with
  | none => s
  | some w =>
    let s2 := (s.unslot u).releaseLanes u (w.lanes.mapIdx (fun i _ => i))
    { s2 with warps := s2.warps.filter (fun x => x.uid != u), cur := s2.cur.bind (fun x => if x.uid = u then none else some x) }

/-- Lanes of a warp that belong to a team. -/
def Warp.teamLanes (w : Warp) (idx : Nat) : Mask :=
  maskOf ((List.range w.width).filter (fun L => (w.lane L).team.toNat == idx && decide ((w.lane L).life = .live)))

/-- A handler all of whose lanes have ended releases the held entries (R269). -/
def Warp.freeHandler (w : Warp) : Warp :=
  if w.handler ∧ w.front = [] ∧ w.heldTraps.all (fun t => !t.double) then
    { w with handler := false, front := mergeFront w.held, held := [], window := none }
  else w

/-- Takes lanes out of a warp for good: from its frontier, held entries, held traps and window, with their transactions. What waited for them alone, a handler
or a BARM, goes on (R216, R269, R379). -/
def Warp.killLanes (w : Warp) (m : Mask) : Warp :=
  let dead (ls : List Lane) : List Lane := ls.mapIdx (fun i l => if m.getLsbD i then { l with life := .exited, tx := Tx.init } else l)
  let sv (x : Save) : Save := { x with front := dropLanes x.front m, lanes := dead x.lanes }
  Warp.checkBarm <| Warp.freeHandler { w with
    lanes := dead w.lanes
    front := dropLanes w.front m
    held := dropLanes w.held m
    heldTraps := (w.heldTraps.map (fun t => { t with mask := t.mask &&& ~~~m })).filter (fun t => t.mask != 0)
    window := w.window.map (fun x => { x with
      save := sv x.save, points := x.points.map sv
      buf := x.buf.filter (fun b => !m.getLsbD b.lane) })
    loads := w.loads.filter (fun b => !m.getLsbD b.lane)
    atTxe := w.atTxe &&& ~~~m
    txLog := if (dead w.lanes).any Lane.txActive then w.txLog else 0
    txBuf := if (dead w.lanes).any Lane.txActive then w.txBuf else 0 }

/-- A TWAIT or TWANY with the mask is satisfied by the tags (R232). -/
def tagsReady (tags : List TagSt) (m : Mask) (any : Bool) : Bool :=
  let sel := (lanesOf m).map (fun t => tags.getD t .free)
  sel.all (fun x => x != .busy) || (any && sel.any (fun x => match x with | .done _ _ _ => true | _ => false))

/-- Wakes a warp parked in TWAIT or TWANY whose tags are ready (R232). -/
def Warp.tagWake (w : Warp) : Warp :=
  match w.wait with
  | some (.twait m) => if tagsReady w.tags m false then { w with wait := none } else w
  | some (.twany m) => if tagsReady w.tags m true then { w with wait := none } else w
  | _ => w

/-- Sets a tag that is BUSY; any other state stays. -/
def setBusyTag (tags : List TagSt) (t : Nat) (v : TagSt) : List TagSt :=
  tags.modify t (fun x => if x = .busy then v else x)

/-- A tag takes its completion status, for good: what a rollback would restore has it too. A warp parked on it wakes (R229,
R230, R232). -/
def Warp.tagDone (w : Warp) (t status bytes op : Nat) : Warp :=
  let v : TagSt := .done status (BitVec.ofNat 32 bytes) op
  let sv (x : Save) : Save := { x with tags := setBusyTag x.tags t v }
  let win := w.window.map (fun x => { x with save := sv x.save, points := x.points.map sv })
  Warp.tagWake { w with tags := setBusyTag w.tags t v, window := win }

/-- Status CANCEL (R230). -/
def stCancel : Nat := 6

/-- Copies in flight of teams that a predicate picks, by grid and team. -/
def State.copiesOf (s : State) (pick : Nat → Nat → Bool) : List Copy :=
  s.cores.flatMap (fun c => c.copies.filter (fun x => pick x.gk x.team))

/-- Lines that copies have bytes for which count as delivered and are not written yet. -/
def Copy.dueLines (c : Copy) : List Nat := dedup (c.out.map (fun x => x.1 / 128))

/-- BYTES that a copy has delivered: those of its steps, or of the lines confirmed of a REM (R230, R440). -/
def State.delivered (s : State) (c : Copy) : Nat :=
  if c.fn = .rem then 128 * ((s.net.xfers.find? (fun x => x.copy == c.uid)).map (·.confirmed)).getD c.confirmed else c.bytes

/-- A transfer is over: frames of it that are still out belong to none, and go on until they are acknowledged or given up (R438, R440). -/
def State.dropXfers (s : State) (copy : Nat) : State :=
  let gone (o : Option Nat) : Bool := s.net.xfers.any (fun x => x.copy == copy && o == some x.id)
  { s with net := { s.net with
      xfers := s.net.xfers.filter (fun x => x.copy != copy)
      out := s.net.out.map (fun o => if gone o.owner then { o with owner := none } else o) } }

/-- A copy completes with CANCEL: what it has delivered stays (R230, R256, R271). -/
def State.cancelCopy (s : State) (c : Copy) : State :=
  let n := s.delivered c
  let s1 := (s.engWrite (.engine c.die c.core) c.die true c.out).releaseLines c.uid (fun _ => true)
  (s1.dropXfers c.uid).modWarp c.w (fun w => w.tagDone c.tag stCancel n 0)

/-- Completes with CANCEL every copy and queued matrix operation that a predicate picks, by issuing grid and team (R256). -/
def State.cancelWork (s : State) (pick : Nat → Nat → Bool) : State :=
  let ops := s.cores.flatMap (fun c => (c.mq ++ c.run.toList).filter (fun x => pick x.gk x.team))
  let s1 := (s.copiesOf pick).foldl State.cancelCopy s
  let s2 := { s1 with cores := s1.cores.map (fun c => { c with
      copies := c.copies.filter (fun x => !pick x.gk x.team)
      mq := c.mq.filter (fun x => !pick x.gk x.team)
      run := c.run.bind (fun x => if pick x.gk x.team then none else some x) }) }
  ops.foldl (fun a x => a.modWarp x.w (fun w => w.tagDone x.tag stCancel 0 0)) s2

/-! ## The Cooper's store (R367 to R369) -/

/-- Records that a partial warp holds. -/
def Partial.held (p : Partial) : List SpawnRec := p.recs.filterMap id

/-- Records a Cooper holds on chip (R367). -/
def Cooper.occupancy (c : Cooper) : Nat := c.parts.foldl (fun n p => n + p.held.length) c.store.length

/-- Some warp of a team is parked in JOINW. -/
def State.joinParked (s : State) (gk team : Nat) : Bool :=
  s.allWarps.any (fun w => w.gk == gk && (match w.wait with
    | some (.joinw ws _) =>
      ws.any (fun x => (w.lane x.1).team.toNat == team)
    | _ => false))

/-- A partial warp is due from a cycle on, if it was not before. -/
def Partial.dueBy (p : Partial) (n : Nat) : Partial := { p with due := some (match p.due with | none => n | some t => min t n) }

/-- A full partial warp is due (R369). -/
def Partial.fill (p : Partial) (width now : Nat) : Partial :=
  if p.due.isNone ∧ width ≤ p.held.length then p.dueBy now else p

/-- The lowest lane without a record takes one. -/
def laneFill (r : SpawnRec) : List (Option SpawnRec) → List (Option SpawnRec)
  | [] => [some r]
  | none :: t => some r :: t
  | some x :: t => some x :: laneFill r t

/-- A partial warp takes a record. Its 512 cycles begin with the first assignment of lane 0; a lane 0 that takes the place of a discarded
record is assigned anew for the 64 cycles of its team's JOINW (R368, R369, R377). -/
def Partial.take (p : Partial) (s : State) (d : Nat) (r : SpawnRec) : Partial :=
  let now := (s.die d).cycles
  let q := { p with recs := laneFill r p.recs }
  let q1 := if p.recs.head?.join.isNone then
      { q with t0 := if p.recs.isEmpty then now else p.t0
               join0 := p.join0.or (if s.joinParked r.gk r.team then some now else none) }
    else q
  q1.fill (s.recOf r.gk).width now

/-- One record of the store, in acceptance order, takes its place in a partial warp if it can (R368). -/
def State.gatherOne (s : State) (d : Nat) (c : Cooper) (r : SpawnRec) : Cooper :=
  match c.parts.find? (fun p => p.gk == r.gk && p.entry == r.entry) with
  | some p =>
    if p.held.length < (s.recOf r.gk).width then
      { c with parts := c.parts.map (fun q => if q.gk = p.gk ∧ q.entry = p.entry then q.take s d r else q) }
    else { c with store := c.store ++ [r] }
  | none =>
    if c.parts.length < 8 then
      let p : Partial := { gk := r.gk, entry := r.entry, recs := [], t0 := 0, join0 := none, due := none }
      { c with parts := c.parts ++ [p.take s d r] }
    else { c with store := c.store ++ [r] }

/-- Gathers the records of a core's store (R368). -/
def State.gather (s : State) (d k : Nat) : State :=
  let c0 := (s.core d k).cooper
  if c0.store = [] then s
  else
    let c1 := c0.store.foldl (fun a r => s.gatherOne d a r) { c0 with store := [] }
    s.modCore d k (fun c => { c with cooper := c1 })

/-- Partial warps without the records that a predicate does not keep; an empty one is gone. -/
def Cooper.keep (c : Cooper) (f : SpawnRec → Bool) : Cooper :=
  { c with
    store := c.store.filter f
    parts := (c.parts.map (fun p => { p with recs := p.recs.map (fun x => x.filter f) })).filter (fun p => !p.held.isEmpty) }

/-- Discards the spawn records that a predicate picks, on chip, in partial warps and in rings; records that waited for a partial warp
then take theirs (R271, R368, R379). -/
def State.dropSpawns (s : State) (pick : Nat → Nat → Bool) : State :=
  let keep (r : SpawnRec) : Bool := !pick r.gk r.team
  let touched := (s.cores.zipIdx.filter (fun x => !(x.1.cooper.store ++ x.1.cooper.parts.flatMap Partial.held).all keep)).map (·.2)
  let s1 := { s with
    cores := s.cores.map (fun c => { c with cooper := c.cooper.keep keep })
    dies := s.dies.map (fun d => { d with rings := d.rings.map (fun x => { x with slots := x.slots.filter (fun y => keep y.rcd) }) }) }
  touched.foldl (fun a i => a.gather (i / 96) (i % 96)) s1

/-! ## Teams that end -/

/-- Warps launched for a team. -/
def State.teamWarps (s : State) (gk idx : Nat) : List Warp :=
  s.allWarps.filter (fun w => w.gk == gk && !w.gathered && (w.lane 0).team.toNat == idx)

/-- Gathered warps of a grid with live lanes of a team. -/
def State.guestWarps (s : State) (gk idx : Nat) : List Warp :=
  s.allWarps.filter (fun w => w.gk == gk && w.gathered && w.teamLanes idx != 0)

/-- The numbers of a grid and of a team of it. -/
def Team.is (t : Team) (gk idx : Nat) : Bool := gk == t.gk && idx == t.idx

/-- Nothing keeps a team from ending: its warps' stores have performed, its posted stores can reach their package points, its copies can
write what they have delivered, and no agent of its cores waits to report (R195, R271, R275, R444). -/
def State.canClose (s : State) (t : Team) : Bool :=
  (s.teamWarps t.gk t.idx ++ s.guestWarps t.gk t.idx).all (fun w => w.sent.isEmpty) && s.canPublish (fun p => t.is p.gk p.team)
    && (s.copiesOf t.is).all (fun c => c.dueLines.all (fun n => s.lineFor c.uid n)) && s.errRoom t.die

/-- The way is made for the end of a team. -/
def State.urgeClose (s : State) (t : Team) : State :=
  (s.copiesOf t.is).foldl (fun a c => a.urgeLines c.uid c.dueLines) (s.urgePosted (fun p => t.is p.gk p.team))

/-- A grid with its descendants, by up to ten levels of children (R363). -/
def State.family (s : State) (ks : List Nat) : List Nat :=
  (List.range 10).foldl (fun l _ =>
    dedup (l ++ (s.grids.filter (fun g => g.parentKey.any l.contains)).map (fun g => g.key))) ks

/-- A die has accepted the selected team and has not placed it yet (R365). -/
def State.accepted (s : State) : Bool :=
  s.lu.selected.isSome && s.dies.any (fun d => d.resv.isSome || d.waitBack || d.conflicts != 0)

/-- A grid and its descendants hold no core, and no die is about to place a team of them (R364, R365). -/
def State.holdsNoCore (s : State) (gk : Nat) : Bool :=
  (s.family [gk]).all (fun k => !s.teams.any (fun t => t.gk == k && t.st == .running)
    && !(s.accepted && s.lu.selected.any (fun x => x.1 == k)))

/-- The drain of a grid has just ended: the command named it or a grid of its name, not its parent (R364). -/
def State.drainEnds (s : State) (g : Grid) : Bool :=
  g.drained && !g.drainTold && !g.finished && !(g.parentKey.bind s.grid?).any (·.drained) && s.holdsNoCore g.key

/-- Raises the interrupt where the drain of a grid has ended (R364). DESIGN CHOICE, log entry 38. -/
def State.drainCheck (s : State) : State :=
  if s.grids.any s.drainEnds then
    { s with lu := { s.lu with drainIrq := true }, grids := s.grids.map (fun g => if s.drainEnds g then { g with drainTold := true } else g) }
  else s

/-- Ends a team as failed, killed or retired: its warps and lanes end, its copies and matrix operations complete with CANCEL,
its spawn records are discarded, its posted stores become visible at package scope, its array is freed and its queue charged
(R271, R275, R325, R358, R379). -/
def State.closeTeam (s : State) (t : Team) (st : TeamSt) : State :=
  let s1 := (s.teamWarps t.gk t.idx).foldl (fun a w => a.endWarp w.uid) s
  let s2 := (s1.guestWarps t.gk t.idx).foldl (fun a w =>
    let m := w.teamLanes t.idx
    let other := s.teams.any (fun y => y.due.isSome && y.gk == t.gk && y.idx != t.idx && w.teamLanes y.idx != 0)
    let a1 := (a.releaseLanes w.uid (lanesOf m)).modWarp w.uid (fun x => { x.killLanes m with stopped := other })
    if ((w.killLanes m).liveMask) = 0 then a1.endWarp w.uid else a1) s1
  let s3 := (s2.cancelWork t.is).dropSpawns t.is
  let s4 := s3.publish (fun p => t.is p.gk p.team)
  let s5 := (s4.freeArray t).charge t
  ((s5.modTeam t.gk t.idx (fun x => { x with st := st, arrivals := [], mode := .idle, due := none })).modGrid t.gk (fun g =>
    { g with ended := g.ended + 1 })).drainCheck

/-- The warps with a lane of a team that fails and cannot end yet: their runs end, and they issue nothing until it has (R271, R444). -/
def State.stopTeam (s : State) (t : Team) : State :=
  (s.teamWarps t.gk t.idx ++ s.guestWarps t.gk t.idx).foldl (fun a w => (a.unslot w.uid).modWarp w.uid (fun x => { x with stopped := true, waitsOn := none })) s

/-- A team fails (R271): it is closed and one record carries the content of the trap record. Where it cannot end yet, or its record finds
no place (R444), it stops and that waits, the first reason standing. -/
def State.failTeam (s : State) (gk idx code : Nat) (d k : Nat) (addr : DWord) (data : List Byte) : State :=
  match s.team? gk idx with
  | none => s
  | some t =>
    if t.st ≠ .running then s
    else
      let x := t.due.getD { code := code, die := d, core := k, addr := addr, data := data }
      let s0 := s.verifyTeam t
      if !s0.canClose t ∨ !s0.errRoom x.die then
        ((s0.modTeam gk idx (fun y => { y with due := some x })).stopTeam t).urgeClose t
      else
        let s1 := s0.closeTeam t .failed
        s1.report { s1.mkErr 0x01 x.code x.die x.core (s1.gridId gk) (BitVec.ofNat 32 idx) (if t.twin then 1 else 0) x.addr with
                    data := x.data }

end Sys2Proof.Machine
end

