-- ==== Sys2Proof/Machine/Ops.lean ====
section
/-! DEFINITION. Taking a trap and returning from a handler (R263 to R271), and the one way every instruction issues: checks at
issue (R15, R16, R48, R306), transactions (R222), speculation (R332 to R338), its effect, and the end of a run (R45). -/
namespace Sys2Proof.Machine

open Sys2Proof

/-! ## Trap causes (R263) -/

/-- ILLEGAL. -/
def cILLEGAL : Nat := 0x01
/-- UNIFORM. -/
def cUNIFORM : Nat := 0x02
/-- REGIDX. -/
def cREGIDX : Nat := 0x03
/-- RUNHAZ. -/
def cRUNHAZ : Nat := 0x04
/-- MISALIGN. -/
def cMISALIGN : Nat := 0x05
/-- PROT. -/
def cPROT : Nat := 0x06
/-- PRIV. -/
def cPRIV : Nat := 0x07
/-- ARRMODE. -/
def cARRMODE : Nat := 0x08
/-- MATX. -/
def cMATX : Nat := 0x09
/-- SYNCMASK. -/
def cSYNCMASK : Nat := 0x0A
/-- TAGBUSY. -/
def cTAGBUSY : Nat := 0x0B
/-- MCHECK. -/
def cMCHECK : Nat := 0x0D
/-- BRK. -/
def cBRK : Nat := 0x0E
/-- TRAP. -/
def cTRAP : Nat := 0x0F
/-- STACK. -/
def cSTACK : Nat := 0x10
/-- DETACHED. -/
def cDETACHED : Nat := 0x11
/-- PFAIL. -/
def cPFAIL : Nat := 0x12

/-! ## Taking a trap (R264 to R271) -/

/-- The 64 bytes of the trap record (R267). -/
def HeldTrap.record (t : HeldTrap) (team : Word) (sid time : DWord) : List Byte :=
  toBytes 4 (t.cause + t.pri.toNat * 2 ^ 8 + t.detail % 256 * 2 ^ 16) ++ toBytes 4 t.insn.toNat ++ toBytes 8 t.pc.toNat
    ++ toBytes 8 t.mask.toNat ++ toBytes 8 t.addr.toNat ++ toBytes 8 (t.pc.toNat + t.len) ++ toBytes 4 team.toNat
    ++ toBytes 4 0 ++ toBytes 8 sid.toNat ++ toBytes 8 time.toNat

/-- The record of a trap of a warp, as the device writes it (R267). -/
def State.trapRecord (s : State) (w : Warp) (t : HeldTrap) : List Byte :=
  t.record (w.lane (lowestLane t.mask)).team (w.lane (lowestLane t.mask)).sid s.timeReg

/-- Address of a warp's trap record (R266). -/
def trapRecAddr (base : DWord) (w : Warp) : DWord :=
  base + 64 * BitVec.ofNat 64 (w.die * 6144 + w.core * 64 + w.ctx)

/-- Teams that have a lane of a mask, by team index. -/
def Warp.teamsOf (w : Warp) (m : Mask) : List Nat := dedup ((lanesOf m).map (fun L => (w.lane L).team.toNat))

/-- Fails every team that has a lane of the trap, with the trap record's content (R271, R379). -/
def State.failTeams (s : State) (w : Warp) (m : Mask) (code : Nat) (addr : DWord) (data : List Byte) : State :=
  (w.teamsOf m).foldl (fun a i => a.failTeam w.gk i code w.die w.core addr data) s

/-- The warp in handler mode for a trap (R268 steps 2 to 4): the privileged registers are set, every other entry is held, and
the trapping lanes form one entry at the handler with priority 7. -/
def Warp.enterHandler (w : Warp) (t : HeldTrap) (traph trec : DWord) : Warp :=
  { w with
    tcause := BitVec.ofNat 32 t.cause
    tepc := t.pc
    tmask := t.mask
    trec := trec
    held := w.front
    front := [.at traph 7 t.mask]
    handler := true
    heldTraps := w.heldTraps.erase t }

/-- The trap to deliver next: a double trap if there is one, in handler mode no other; else the lowest code (R264, R269). -/
def Warp.nextTrap (w : Warp) : Option HeldTrap :=
  (w.heldTraps.filter (fun t => t.double || !(w.handler || w.heldTraps.any (·.double)))).foldl (fun b t =>
    match b with
    | none => some t
    | some x => if t.cause < x.cause then some t else some x) none

/-- The trap record is written with plain stores of the lowest trapping lane, like any store of it: past the caches on a page marked IO, else
at the home, leaving the lane's narrow-scope records (R268, R287, R392). -/
def State.storeRecord (s : State) (w : Warp) (L pa : Nat) (io : Bool) (data : List Byte) : State :=
  if io then { s with mem := Memory.writes s.mem pa data, poison := clearPoison s.poison pa data.length }
  else s.perform w { lane := L, space := .global, addr := pa, bytes := data, posted := false, seq := 0 }

/-- TAKING A TRAP: delivers the next held trap of a warp that is not speculative (R264 to R271). Without a handler, or on a
double trap, the team fails. Else the record is written with plain stores and the handler is entered. A resolvable fault on the
record is resolved first; an unusable trap area fails the team with CODE 0x12. The warp's earlier accesses perform first. A warp of a
team that has failed and cannot end yet takes no other trap. -/
def State.deliverTrap (s : State) (u : Nat) : State :=
  match s.warp? u with
  | none => s
  | some w =>
    if w.stopped then s
    else if w.failing then s.failTeams w w.liveMask cMCHECK 0 []
    else if w.spec ∨ w.sent ≠ [] ∨ w.loads ≠ [] then s
    else
      match w.nextTrap with
      | none => s
      | some t =>
        let rcd := s.recOf w.gk
        let data := s.trapRecord w t
        if t.double ∨ rcd.traph = 0 then s.failTeams w t.mask t.cause (BitVec.ofNat 64 t.phys) data
        else
          let ra := trapRecAddr rcd.trapa w
          let asid := rcd.asidN
          if bits ra.toNat 63 55 ≠ 0 then s.failTeams w t.mask cPFAIL ra data
          else
            match s.translate w.die w.core asid ra.toNat with
            | (.fault m g, s1) => s1.noteFault (mkFault asid ra.toNat .write 4 w.die w.core m g) (.warp u)
            | (.held, s1) => s1
            | (.backing, s1) => s1.failTeams w t.mask cPFAIL ra data
            | (.ok pa e, s1) =>
              if (e.refuses .write).isSome then s1.failTeams w t.mask cPFAIL ra data
              else if !e.io ∧ s1.writerShut (pa / 128) then s1.urge pa 64 true
              else (s1.storeRecord w (lowestLane t.mask) pa e.io data).modWarp u (fun x => x.enterHandler t rcd.traph ra)

/-- RETURN FROM A TRAP (R270): every lane of the handler that has not exited joins the frontier at the resume address with the
priority read back, handler mode ends and the held entries are released. -/
def Warp.leaveHandler (w : Warp) (resume : DWord) (pri : BitVec 3) (lanes : Mask) : Warp :=
  { w with handler := false, held := [], front := addLanes (mergeFront w.held) resume pri lanes }

/-! ## Effects of an instruction -/

/-- What is fixed when an instruction issues: its entry, its address, the next address, and the lanes that execute it. -/
structure Ctx where
  e : FEntry
  pc : DWord
  next : DWord
  mask : Mask
  /-- Numbers that it leaves pending (R47, R48). -/
  dest : List Nat
  /-- Its warp is in handler mode: a trap of it is a double trap (R269). -/
  handler : Bool
deriving DecidableEq, Repr

/-- Lanes that execute, ascending. -/
def Ctx.lanes (c : Ctx) : List Nat := lanesOf c.mask

/-- A page fault that a lane meets: page, address space, address, whether at the instruction fetch, and whether a migration's. -/
structure PageHit where
  page : Nat
  asid : Nat
  addr : DWord
  fetch : Bool
  mig : Bool
deriving DecidableEq, Repr

/-- The effect of an instruction on the lanes that execute it. -/
structure Eff where
  s : State
  w : Warp
  /-- Lanes that trap (R264). -/
  traps : List (Nat × LTrap) := []
  /-- Of lanes that met poisoned memory, the physical address of the granule (R446). -/
  phys : List (Nat × Nat) := []
  /-- Lanes that park at the instruction for a page (R42). -/
  pages : List (Nat × PageHit) := []
  /-- Lanes that move (R39). -/
  moves : List (DWord × BitVec 3 × Mask) := []
  /-- Lanes that have left the entry: exited, or with their transaction ended elsewhere. -/
  gone : Mask := 0
  /-- The lanes that complete park at the next instruction (R212, R216, R245). -/
  park : Option Park := none
  /-- Lanes that stay parked at this instruction (R227). -/
  stay : Mask := 0
  /-- New priority of the entry (R178). -/
  pri : Option (BitVec 3) := none
  /-- The run ends after the instruction (R45). -/
  endRun : Bool := false
  /-- The instruction waits at issue: nothing has happened (R301). -/
  stall : Bool := false
  /-- The counter that the wait adds to (R348). -/
  why : Option Nat := none
  /-- It waits in the queue of a line's home (R410). -/
  home : Bool := false
  /-- What the wait asks of the machine meanwhile: a place in a line's queue, a Recall, a back-invalidate snoop (R410, R414, R422). -/
  urge : State → State := id
  /-- Plain stores of its lanes that leave the core with it (R409). -/
  stores : List StoreRec := []
  /-- Lanes that park at this instruction for a line of their warp's serial attempt (R227). -/
  locked : Mask := 0
  /-- Lines written at the home, for the read sets of the warp's own lanes (R224). -/
  wrote : List (Nat × Nat) := []

/-- The effect of an instruction that changes nothing. -/
def Eff.idle (s : State) (w : Warp) : Eff := { s := s, w := w }

/-- The instruction waits at issue. -/
def Eff.wait (s : State) (w : Warp) : Eff := { s := s, w := w, stall := true }

/-- The effect waits at issue after all, with what it asks for meanwhile. -/
def Eff.hold (f : Eff) (urge : State → State) (why : Option Nat := none) : Eff := { f with stall := true, urge := urge, why := why }

/-- The effect waits in the queue of a line's home, where `urge` puts it (R410). -/
def Eff.queue (f : Eff) (urge : State → State) : Eff := { f.hold urge with home := true }

/-- Lane L traps. -/
def Eff.trap (f : Eff) (L : Nat) (t : LTrap) : Eff := { f with traps := f.traps ++ [(L, t)] }

/-- Lane L meets poisoned memory: MCHECK with its access's kind and address (R208, R263), and the lowest poisoned granule of its `n` bytes at
a physical address for the error record (R446; DEDUCED, log entry 73). -/
def Eff.machineCheck (f : Eff) (L detail : Nat) (ea : DWord) (pa n : Nat) : Eff :=
  { f.trap L ⟨cMCHECK, detail, ea⟩ with phys := f.phys ++ ((f.s.poison.filter (fun g => overlaps pa n (8 * g) 8)).head?.map (fun g => (L, 8 * g))).toList }

/-- Lane L parks for a page. -/
def Eff.page (f : Eff) (L : Nat) (p : PageHit) : Eff := { f with pages := f.pages ++ [(L, p)] }

/-- A trap in every lane that executes. -/
def Eff.trapAll (c : Ctx) (s : State) (w : Warp) (cause detail : Nat) (addr : DWord := 0) : Eff :=
  { s := s, w := w, traps := c.lanes.map (fun L => (L, ⟨cause, detail, addr⟩)) }

/-- An MCHECK of poisoned memory in every lane that executes (R208, R446). -/
def Eff.checkAll (c : Ctx) (s : State) (w : Warp) (detail : Nat) (addr : DWord) (pa n : Nat) : Eff :=
  c.lanes.foldl (fun f L => f.machineCheck L detail addr pa n) (Eff.idle s w)

/-- An instruction that acts in each lane on that lane alone. -/
def Eff.perLane (c : Ctx) (s : State) (w : Warp) (f : Nat → Lane → LaneOut) : Eff :=
  let outs := c.lanes.map (fun L => (L, f L (w.lane L)))
  { s := s
    w := { w with lanes := w.lanes.mapIdx (fun i l => if c.mask.getLsbD i then (f i l).l else l) }
    traps := outs.filterMap (fun x => x.2.trap.map (fun t => (x.1, t))) }

/-- How an instruction issues. -/
structure Kind where
  /-- The boundary bit (R51). -/
  b : Bool
  /-- The word fails decode (R68). -/
  bad : Bool := false
  u : Uses := {}
  /-- Length in bytes. -/
  len : Nat := 4
  /-- Issue cycles at widths 16, 32 and 64 (R302). -/
  cyc : Nat × Nat × Nat := (1, 1, 2)
  /-- Keeps its usual effect in a transaction (R222). -/
  tx : Bool := true
  /-- Waits until the warp is non-speculative (R342). -/
  commit : Bool := false
  /-- A plain load: it may open a shadow point (R332). -/
  load : Bool := false
  /-- A plain access, which waits in cautious mode (R344). -/
  plain : Bool := false
  /-- Entries of the speculative store buffer for 32 lanes (R336). -/
  buf : Nat := 0
  /-- A double trap in handler mode (R269). -/
  noHandler : Bool := false
  /-- What an operand that a lane finds in another lane adds to its checks: the bit of its field where it fails R16, and the registers it
  resolves to (R171). -/
  far : Warp → Nat → Nat × List Nat := fun _ _ => (0, [])

/-- Issue cycles at the warp's width (R302). DESIGN CHOICE, log entry 55. -/
def Kind.cycles (k : Kind) (w : Warp) : Nat :=
  if w.width = 16 then k.cyc.1 else if w.width = 32 then k.cyc.2.1 else k.cyc.2.2

/-! ## Issue -/

/-- An access of the warp waits for a line that the serial attempt of another warp of its slot holds (R227). -/
def State.slotLocked (s : State) (w : Warp) : Bool :=
  s.lines.any (fun r => w.awaits r.line && r.lock.any (fun x => x.1 != w.uid && s.warps.any (fun v =>
    v.uid == x.1 && v.die == w.die && v.core == w.core && v.ctx % 4 == w.ctx % 4 && (v.lane x.2).tx.serial)))

/-- The warp waits in its slot for a cycle; the next step lets the machine do something else (R301, DESIGN CHOICE, log entry 1).
DESIGN CHOICE, log entry 52. No wait in a slot depends on another warp of the slot: for a line of such a warp's serial attempt the run ends
instead (R301; DEDUCED, log entry 62). What does not wait at a home has no place in a line's queue (R410). -/
def State.stallAt (s : State) (w : Warp) (counter : Option Nat) (home : Bool := false) : State :=
  let s0 := if home then s else s.modWarp w.uid (fun x => { x with waitsOn := none })
  let s1 := { s0.passCycles w.die 1 with stall := true }
  let s2 := match counter with
    | none => s1
    | some i => s1.count w.die w.core i 1
  match s2.cur with
  | some v => if s2.slotLocked v then { s2.leaveSlot v with stall := false } else s2
  | none => s2

/-- The pairs of a list by rising lane. -/
def byLane {α : Type} (l : List (Nat × α)) : List (Nat × α) :=
  if l.isEmpty then [] else (List.range 64).flatMap (fun L => l.filter (fun x => x.1 == L))

/-- Groups the traps of an instruction by cause (R263, R264): the fields of every lane for REGIDX, the lowest pending register
for RUNHAZ, the flags of every lane for FPX, else the lowest lane's DETAIL and ADDR, with the granule that it met for an MCHECK. DEDUCED, log
entry 51. -/
def groupTraps (ts : List (Nat × LTrap)) (phys : List (Nat × Nat)) (pc : DWord) (pri : BitVec 3) (insn : Word) (len : Nat)
    (double : Bool) : List HeldTrap :=
  (byLane ts).foldl (fun acc x =>
    if acc.any (fun h => h.cause == x.2.cause) then
      acc.map (fun h => if h.cause = x.2.cause then
        { h with
          mask := h.mask ||| laneBit x.1
          detail := if h.cause = cREGIDX ∨ h.cause = cFPX then h.detail ||| x.2.detail
                    else if h.cause = cRUNHAZ then min h.detail x.2.detail else h.detail } else h)
    else acc ++ [{ cause := x.2.cause, detail := x.2.detail, addr := x.2.addr, mask := laneBit x.1, pc := pc, pri := pri,
                   insn := insn, len := len, double := double
                   phys := if x.2.cause = cMCHECK then ((phys.find? (fun y => y.1 == x.1)).map (·.2)).getD 0 else 0 }]) []

/-- Groups the lanes that park for pages into entries (R42). -/
def groupPages (ps : List (Nat × PageHit)) (pc : DWord) (pri : BitVec 3) : List FEntry :=
  ps.foldl (fun acc x =>
    if acc.any (fun e => match e.park with | .page p a _ _ g => p == x.2.page && a == x.2.asid && g == x.2.mig | _ => false) then
      acc.map (fun e => match e.park with
        | .page p a _ _ g => if p = x.2.page ∧ a = x.2.asid ∧ g = x.2.mig then { e with mask := e.mask ||| laneBit x.1 } else e
        | _ => e)
    else acc ++ [{ pc := pc, pri := pri, mask := laneBit x.1, park := .page x.2.page x.2.asid x.2.addr x.2.fetch x.2.mig,
                   pfail := [] }]) []

/-- Aborts transactions of lanes of the issuing warp (R222, R224). -/
def abortLanes (s : State) (w : Warp) (ls : List (Nat × Nat)) : State × Warp :=
  ls.foldl (fun x a => ((x.1.releaseTx x.2.uid a.1).count x.2.die x.2.core 12 1, x.2.abortLane a.1 a.2 none)) (s, w)

/-- Shadow-log entries in use by the warps of a core that are not issuing (R338, R346). -/
def State.logUsed (s : State) (d k : Nat) : Nat :=
  (s.warps.filter (fun x => x.die == d && x.core == k)).foldl (fun n x =>
    n + x.txLog + (match x.window with | some v => v.log.length | none => 0)) 0

/-- Store-buffer entries in use by the warps of a core that are not issuing (R338, R346). -/
def State.bufUsed (s : State) (d k : Nat) : Nat :=
  (s.warps.filter (fun x => x.die == d && x.core == k)).foldl (fun n x =>
    n + x.txBuf + (match x.window with | some v => v.ents.foldl (fun m e => m + e.2) 0 | none => 0)) 0

/-- Entries of the store buffer that an instruction of a warp takes (R336). -/
def Kind.bufNeed (k : Kind) (w : Warp) : Nat := k.buf * (if w.width = 64 then 2 else 1)

/-- The issue of an instruction counts in the attempt of each ACTIVE lane (R227). -/
def Warp.countTx (w : Warp) (act : List Nat) : Warp :=
  { w with lanes := w.lanes.mapIdx (fun i l => if act.contains i then { l with tx := { l.tx with insns := l.tx.insns + 1 } } else l) }

/-- Registers that lanes which go on in their transactions write are logged (R220, R346). -/
def Warp.logTx (w : Warp) (u : Uses) (ls : List Nat) : Warp :=
  { w with lanes := w.lanes.mapIdx (fun i l => if ls.contains i then
      { l with tx := { l.tx with logged := (u.dests w.alloc l).foldl setPut l.tx.logged } } else l) }

/-- What the transactions of the active lanes make of an instruction before it executes (R222, R223, R227, R346): the lanes that abort
with their causes, and the warp with its instruction, log and buffer counts raised: the log entries are those of the ACTIVE lanes that go on.
LENGTH goes before FORBIDDEN, and both before every trap but those of decode (DESIGN CHOICE, log entry 34). -/
def txGate (s : State) (k : Kind) (w : Warp) (ls : List Nat) : List (Nat × Nat) × Warp :=
  let act := ls.filter (fun L => (w.lane L).txActive)
  if act.isEmpty then ([], w)
  else
    let ab1 := act.filterMap (fun L =>
      if (w.lane L).tx.serial ∧ 32 ≤ (w.lane L).tx.insns then some (L, cLength)
      else if k.tx then none else some (L, cForbidden))
    let rest := act.filter (fun L => !ab1.any (fun x => x.1 == L))
    let need := (k.u.logItems w rest).length
    let w1 := w.countTx act
    if rest.isEmpty then (ab1, w1)
    else if 16 < w.txLog + need ∨ 128 < s.logUsed w.die w.core + w.txLog + need then (ab1 ++ rest.map (fun L => (L, cRegCap)), w1)
    else if k.buf ≠ 0 ∧ 256 < s.bufUsed w.die w.core + w.txBuf + k.bufNeed w then (ab1 ++ rest.map (fun L => (L, cWriteCap)), w1)
    else (ab1, { w1.logTx k.u rest with txLog := w.txLog + need, txBuf := w.txBuf + k.bufNeed w })

/-- Per-lane checks before execution: REGIDX (R16), RUNHAZ of an indexed operand (R48), MCHECK of an uncorrectable source
word (R306). -/
def laneCheck (k : Kind) (w : Warp) (L : Nat) : Option LTrap :=
  let l := w.lane L
  let bad := k.u.badIndex w.alloc l ||| (k.far w L).1
  if bad ≠ 0 then some ⟨cREGIDX, bad, 0⟩
  else
    match least ((k.u.indexed w.alloc l ++ (k.far w L).2).filter (fun r => w.pend.contains r)) with
    | some r => some ⟨cRUNHAZ, r, 0⟩
    | none =>
      if (k.u.sources w.alloc l).any (fun r => l.badRegs.contains r) then some ⟨cMCHECK, 3, 0⟩ else none

/-- What a rollback to here restores (R335). -/
def Warp.saveHere (w : Warp) (pc : DWord) (seq : Nat) : Save :=
  { front := w.front, lanes := w.lanes, sregs := w.sregs, wmode := w.wmode, tags := w.tags, pend := w.pend,
    heldTraps := w.heldTraps, pc := pc, seq := seq }

/-- A plain load that makes its warp speculative: an earlier plain access has not performed (R332). -/
def Warp.opens (k : Kind) (w : Warp) : Bool := k.load && w.window.isNone && (w.sent.any StoreRec.plain || !w.loads.isEmpty)

/-- Opens a shadow point at a plain load where an earlier plain access has not performed; in a window, a load issued while an access of
the window has not performed is a later shadow point (R332, R333). -/
def openWindow (k : Kind) (w : Warp) (pc : DWord) : Warp × Bool :=
  match w.window with
  | none =>
    if w.opens k then
      ({ w with window := some { save := w.saveHere pc 0, points := [], log := [], buf := [], ents := [], watch := [],
                                  copies := [], seq := 0, trapped := false } }, true)
    else (w, false)
  | some win =>
    if k.load ∧ (win.buf.any StoreRec.plain ∨ w.loads.any (fun l => l.spec)) then
      ({ w with window := some { win with points := win.points ++ [w.saveHere pc win.seq] } }, false)
    else (w, false)

/-- Why an instruction waits at issue before it executes, as the counter of R348 that its wait adds to: for its commit (R342), for space
in the log or the buffer (R338), or for earlier accesses in cautious mode and beside transactions (R344, R345). -/
def issueWait (s : State) (k : Kind) (w : Warp) (ls : List Nat) : Option (Option Nat) :=
  let need := (k.u.logItems w ls).length
  match w.window with
  | some win =>
    if win.trapped ∨ k.commit then some (some 10)
    else if 16 < win.log.length + need ∨ 128 < s.logUsed w.die w.core + win.log.length + need then some (some 7)
    else if k.buf ≠ 0 ∧ 256 < s.bufUsed w.die w.core + win.ents.foldl (fun m e => m + e.2) 0 + k.bufNeed w then some (some 8)
    else none
  | none =>
    if (1 < w.cautious ∨ (w.anyTx ∧ k.load)) ∧ k.plain ∧ !w.settled then some none
    else if w.opens k ∧ (16 < need ∨ 128 < s.logUsed w.die w.core + need) then some (some 7)
    else none

/-- The warp after its window has recorded an instruction (R334, R336). -/
def Warp.logInsn (w : Warp) (k : Kind) (ls : List Nat) (trapped : Bool) : Warp :=
  { w with window := w.window.map (fun v => { v with
      log := v.log ++ (k.u.logItems w ls).map (fun i => { item := i, seq := v.seq, bad := false })
      ents := if k.buf = 0 then v.ents else v.ents ++ [(v.seq, k.bufNeed w)]
      seq := v.seq + 1
      trapped := v.trapped || trapped }) }

/-- Counts an instruction of the warp: its run, cautious mode, and the rollback count (R45, R343, R344).
DESIGN CHOICE, log entry 44. -/
def Warp.tally (w : Warp) (pc : DWord) (now : Nat) : Warp :=
  let hit : Bool := w.window.isNone && decide (pc = w.rbAddr)
  { w with
    inRun := true
    count := w.count + 1
    lastIssue := some now
    cautious := w.cautious - 1
    waitsOn := none
    rbCount := if hit ∨ w.cautious = 1 then 0 else w.rbCount }

/-- Where the lanes of an instruction go: trapping, parked, moved and remaining lanes take their places in the frontier, results
become pending, and lanes in transactions that trap, park or conflict abort (R42, R47, R222, R224). With the traps to deliver. -/
def places (k : Kind) (c : Ctx) (f : Eff) : State × Warp × List HeldTrap :=
  -- traps and page faults of ACTIVE lanes abort with FAULT (R222)
  let txT := (f.traps.filter (fun x => (f.w.lane x.1).txActive)).map (fun x => (x.1, cTxFault))
  let txP := (f.pages.filter (fun x => (f.w.lane x.1).txActive)).map (fun x => (x.1, cTxFault))
  let traps := f.traps.filter (fun x => !(f.w.lane x.1).txActive)
  let pages := f.pages.filter (fun x => !(f.w.lane x.1).txActive)
  let (s1, w1) := abortLanes f.s f.w (txT ++ txP)
  let movers := f.moves.foldl (fun m x => m ||| x.2.2) 0
  let away := maskOf (f.traps.map (·.1)) ||| maskOf (f.pages.map (·.1)) ||| f.gone ||| f.stay ||| f.locked ||| movers
  let rest := c.mask &&& ~~~away
  let held := groupTraps traps f.phys c.pc c.e.pri s1.insn k.len c.handler
  let pri := f.pri.getD c.e.pri
  let front1 := f.moves.foldl (fun fr x => addLanes fr x.1 x.2.1 x.2.2) (w1.front ++ groupPages pages c.pc c.e.pri)
  let waits (fr : List FEntry) (p : Park) (m : Mask) : List FEntry := if m = 0 then fr else fr ++ [{ FEntry.at c.pc c.e.pri m with park := p }]
  let front2 := waits (waits front1 .serial f.stay) .lock f.locked
  let front3 := match f.park with
    | none => addLanes front2 c.next pri rest
    | some p => if rest = 0 then front2 else front2 ++ [{ FEntry.at c.next pri rest with park := p }]
  let pend := if c.dest.isEmpty then w1.pend else dedup (w1.pend ++ c.dest)
  let conf := (List.range w1.width).filter (fun L => (w1.lane L).txActive
    && f.wrote.any (fun x => x.1 != L && (w1.lane L).tx.rlines.contains x.2))
  let (s2, w2) := abortLanes s1 { w1 with front := front3, pend := pend, heldTraps := w1.heldTraps ++ held }
    (conf.map (fun L => (L, cConflict)))
  (s2, w2.freeHandler, held)

/-- The run ends with the instruction (R45). -/
def Warp.endsRun (w : Warp) (k : Kind) (f : Eff) (held : List HeldTrap) : Bool :=
  k.b || decide (w.count ≥ 24) || f.endRun || f.park.isSome || w.wait.isSome || !held.isEmpty
    || (!w.handler && !w.heldTraps.isEmpty) || (selectEntry w.front).isNone

/-- Closes an instruction whose warp is `w`: it is counted, its cycles pass, lines taken meanwhile are answered, and where the
run ends a trap of a warp that is not speculative is delivered (R45, R264, R268, R302), a killed warp's too, before it stops (R275,
DESIGN CHOICE, log entry 70). -/
def closeInsn (k : Kind) (c : Ctx) (f : Eff) (s : State) (w : Warp) (held : List HeldTrap) : State :=
  let w4 := (w.logInsn k c.lanes (!held.isEmpty)).tally c.pc (s.die w.die).cycles
  let s3 := (s.passCycles w4.die (k.cycles w4)).count w4.die w4.core 6 (if 1 < w.cautious then 1 else 0)
  let s4 := { s3 with snooped := none, cur := some w4 }
  if w4.liveMask = 0 then s4.endWarp w4.uid
  else
    let s5 := if w4.endsRun k f held then s4.leaveSlot w4 else s4
    let s6 := (s3.snooped.getD []).foldl (fun a h => a.snoopWarp h.1 h.2.1 h.2.2 w4.uid) s5
    if s6.cur.isNone then s6.deliverTrap w4.uid else s6

/-- Ends an instruction. -/
def finish (k : Kind) (c : Ctx) (f : Eff) : State :=
  let x := places k c f
  closeInsn k c f x.1 x.2.1 x.2.2

/-- The instruction would spill an entry of its warp's frontier or refill one (R43, R335). -/
def respills (k : Kind) (c : Ctx) (f : Eff) (w : Warp) : Bool := spilled (places k c f).2.1.front != spilled w.front

/-- The state while an instruction executes: lines taken from its warp are noted (DESIGN CHOICE, log entry 1). -/
def State.listening (s : State) : State := { s with snooped := some [] }

/-- The issuing warp no longer waits. -/
def State.awake (s : State) : State := { s with stall := false }

/-- The warp with another frontier. -/
def Warp.setFront (w : Warp) (fr : List FEntry) : Warp := { w with front := fr }

/-- The traps that lanes of an instruction meet before it executes: the PFAIL of an unresolvable fault (R273), then the checks of its
operands. -/
def preTraps (k : Kind) (w : Warp) (e : FEntry) (mask : Mask) : List (Nat × LTrap) :=
  (lanesOf mask).filterMap (fun L =>
    match e.pfail.find? (fun x => x.1.getLsbD L) with
    | some x => some (L, ⟨cPFAIL, x.2.1, x.2.2⟩)
    | none => (laneCheck k w L).map (fun t => (L, t)))

/-- Source words of a lane that hold a correctable error (R306). -/
def Kind.softReads (k : Kind) (w : Warp) (l : Lane) : List Nat := l.softRegs.filter (fun r => (k.u.sources w.alloc l).contains r)

/-- Correctable errors in the source words of lanes are corrected as they are read, for good, and counted (R306, R340, R447). -/
def readSoft (k : Kind) (s : State) (w : Warp) (mask : Mask) : State × Warp :=
  let n := (lanesOf mask).foldl (fun n L => n + (k.softReads w (w.lane L)).length) 0
  if n = 0 then (s, w)
  else
    (s.countCorr w.die w.core 4 n,
     w.lasting id (fun ls => ls.mapIdx (fun i l =>
        if mask.getLsbD i then { l with softRegs := l.softRegs.filter (fun r => !(k.softReads w (w.lane i)).contains r) } else l)) id)

/-- Executes an instruction in the lanes that pass the per-lane checks; where it waits, nothing of `s0` has changed but what it asks for.
A speculative warp waits with a change that would spill an entry of its frontier or refill one (R335); that wait counts as one for its commit
(DESIGN CHOICE, log entry 74). The operand checks of a lane go before what the instruction itself checks: REGIDX before the ILLEGAL of an empty
spawn entry (DESIGN CHOICE, log entry 34). `dest` is what the instruction leaves pending. -/
def execute (k : Kind) (body : Ctx → State → Warp → Eff) (s0 s : State) (w0 w : Warp) (e : FEntry) (mask : Mask) (dest : List Nat) : State :=
  let next := e.pc + BitVec.ofNat 64 k.len
  let pre := preTraps k w e mask
  let c : Ctx := { e := e, pc := e.pc, next := next, mask := mask &&& ~~~(maskOf (pre.map (·.1))), dest := dest, handler := w0.handler }
  let x := readSoft k s w c.mask
  let f := if c.mask = 0 then Eff.idle s w else body c x.1.listening x.2
  if f.stall then (f.urge s0).stallAt w0 f.why f.home
  else
    let g := { f with traps := pre ++ f.traps }
    if f.w.window.isSome ∧ respills k { c with mask := mask } g w0 then s0.stallAt w0 (some 10)
    else finish k { c with mask := mask } g

/-- The lowest pending register that the lanes of an instruction touch, where a direct operand is pending (R48, R263). -/
def directHazard (k : Kind) (w : Warp) (ls : List Nat) : Option Nat :=
  if k.u.direct.any (fun r => w.pend.contains r) then
    least ((k.u.direct ++ ls.flatMap (fun L => k.u.indexed w.alloc (w.lane L) ++ (k.far w L).2)).filter (fun r => w.pend.contains r))
  else none

/-- Numbers that an instruction leaves pending as it issues: those of its destination in the lanes that come to it, whatever becomes of them
then (R47, R48). A lane left with a PFAIL does not come to it (R273). -/
def Kind.leaves (k : Kind) (w : Warp) (e : FEntry) : List Nat :=
  let ls := (lanesOf e.mask).filter (fun L => !e.pfail.any (fun x => x.1.getLsbD L))
  if k.u.var && !ls.isEmpty then k.u.pending w ls else []

/-- An instruction that only traps, in every lane: it reads and writes nothing. -/
def Kind.bare (k : Kind) : Kind := { k with u := {}, load := false, buf := 0, commit := false, plain := false, far := fun _ _ => (0, []) }

/-- Issues an instruction from the selected entry (R37): decode checks (R15, R68), transactions (R222), pending registers (R48), waits
(R301), then execution. Lanes that abort leave the entry, and an instruction that reads or writes scalar registers executes for the rest
(R222). The order of fates of which several hold is the model's (DESIGN CHOICE, log entry 34). -/
def issueAt (k : Kind) (body : Ctx → State → Warp → Eff) (s : State) (w : Warp) (e : FEntry) : State :=
  let all := lanesOf e.mask
  let illegal : Ctx → State → Warp → Eff := fun c x v => Eff.trapAll c x v cILLEGAL 0
  if k.bad ∨ k.u.regs.any (fun x => x.beyond w.alloc) then
    if w.window.any (·.trapped) then s.stallAt w (some 10)
    else execute k.bare illegal s s w ((w.countTx (all.filter (fun L => (w.lane L).txActive))).setFront (dropLanes w.front e.mask))
      { e with pfail := [] } e.mask []
  else
    let g := txGate s k w all
    let ls := all.filter (fun L => !g.1.any (fun x => x.1 == L))
    let haz := directHazard k w ls
    let k1 := if haz.isSome ∨ ls.all (fun L => e.pfail.any (fun x => x.1.getLsbD L)) then k.bare else k
    let body1 := match haz with
      | some r => fun c x v => Eff.trapAll c x v cRUNHAZ r
      | none => body
    match issueWait s k1 g.2 ls with
    | some i => s.stallAt w i
    | none =>
      let o := openWindow k1 (g.2.setFront w.front) e.pc
      let s1 := if o.2 then s.count w.die w.core 0 1 else s
      let x := abortLanes s1 (o.1.setFront (dropLanes w.front e.mask)) g.1
      execute k1 (if k.noHandler ∧ w.handler then illegal else body1) s x.1 w x.2 e (maskOf ls) (k.leaves w e)

/-- Issues an instruction of the warp that holds the slot. An instruction that no warp can issue, because none holds a slot or its frontier
has no entry to select, has no effect: only a selected entry issues (R37; DESIGN CHOICE, log entry 20). -/
def issue (k : Kind) (body : Ctx → State → Warp → Eff) (s : State) : Host.Outcome State Fault Refusal :=
  match s.cur with
  | none => .next s
  | some w =>
    match w.selected with
    | none => .next s
    | some e => .next (issueAt k body s.awake w e)

end Sys2Proof.Machine
end

