-- ==== Sys2Proof/Machine/IntArith.lean ====
section
/-! DEFINITION. Integer, logic, address and scalar instructions (spec 05, R121 to R144), with their 16-bit forms (R63). -/
namespace Sys2Proof.Machine

open Sys2Proof

/-- Outcome of a step. -/
abbrev Out := Host.Outcome State Fault Refusal

/-! ## Shared shapes -/

/-- V(D, L) := f(V(A, L), V(C, L)) in each active lane (R122). -/
def lane3 (b : Bool) (d a c : VReg) (f : Word → Word → Word) (s : State) : Out :=
  issue { b := b, u := { regs := useDAC d a c } } (fun x s w => Eff.perLane x s w (fun _ l =>
    .ok (l.setV w.alloc d (f (l.v w.alloc a) (l.v w.alloc c))))) s

/-- V(D, L) := f(V(A, L)) in each active lane. -/
def lane2 (b : Bool) (d a : VReg) (f : Word → Word) (s : State) : Out :=
  issue { b := b, u := { regs := useDA d a } } (fun x s w => Eff.perLane x s w (fun _ l =>
    .ok (l.setV w.alloc d (f (l.v w.alloc a))))) s

/-- V(D, L) := f(V(D, L), V(A, L), V(C, L)) in each active lane. -/
def lane4 (b : Bool) (d a c : VReg) (f : Word → Word → Word → Word) (s : State) : Out :=
  issue { b := b, u := { regs := useDDAC d a c } } (fun x s w => Eff.perLane x s w (fun _ l =>
    .ok (l.setV w.alloc d (f (l.v w.alloc d) (l.v w.alloc a) (l.v w.alloc c))))) s

/-- VP(D, L) := f(VP(A, L), VP(C, L)) in each active lane (R127). -/
def lane3P (b : Bool) (d a c : VReg) (cyc : Nat × Nat × Nat) (f : DWord → DWord → DWord) (s : State) : Out :=
  issue { b := b, u := { regs := useDAC d a c 2 }, cyc := cyc } (fun x s w => Eff.perLane x s w (fun _ l =>
    .ok (l.setVP w.alloc d (f (l.vp w.alloc a) (l.vp w.alloc c))))) s

/-- Pred(D, L) := f(V(A, L), V(C, L)) in each active lane (R130). -/
def lanePred (b : Bool) (d : PReg) (a c : VReg) (f : Word → Word → Bool) (s : State) : Out :=
  issue { b := b, u := { regs := [⟨2, a, 1, true, false⟩, ⟨4, c, 1, true, false⟩], pd := [d] } }
    (fun x s w => Eff.perLane x s w (fun _ l => .ok (l.setPred d (f (l.v w.alloc a) (l.v w.alloc c))))) s

/-- Pred(D, L) := f(VP(A, L), VP(C, L)) in each active lane (R130). -/
def lanePredP (b : Bool) (d : PReg) (a c : VReg) (f : DWord → DWord → Bool) (s : State) : Out :=
  issue { b := b, u := { regs := [⟨2, a, 2, true, false⟩, ⟨4, c, 2, true, false⟩], pd := [d] } }
    (fun x s w => Eff.perLane x s w (fun _ l => .ok (l.setPred d (f (l.vp w.alloc a) (l.vp w.alloc c))))) s

/-- S(D) := f(S(A), S(C)), once per warp (R123). -/
def scalar3 (b : Bool) (d a c : SReg) (f : Word → Word → Word) (s : State) : Out :=
  issue { b := b, u := { ss := [a.val, c.val], sd := [d.val] }, cyc := (1, 1, 1), tx := false }
    (fun _ s w => { s := s, w := w.setS d.val (f (w.sv a.val) (w.sv c.val)) }) s

/-- Pred(D, L) := f(S(A), S(C)) in each active lane (R142, R143). -/
def scalarPred (b : Bool) (d : PReg) (a c : SReg) (f : Word → Word → Bool) (s : State) : Out :=
  issue { b := b, u := { ss := [a.val, c.val], pd := [d] } }
    (fun x s w => Eff.perLane x s w (fun _ l => .ok (l.setPred d (f (w.sv a.val) (w.sv c.val))))) s

/-- The register a 16-bit form names (R63). -/
def hreg (r : LReg) : VReg := .v ⟨r.val, Nat.lt_of_lt_of_le r.isLt (by decide)⟩

/-- V(D, L) := f(V(D, L), V(C, L)): a 16-bit instruction (R63). -/
def half2 (b : Bool) (d c : LReg) (f : Word → Word → Word) (s : State) : Out :=
  issue { b := b, len := 2, u := { regs := useDDAC (hreg d) (hreg d) (hreg c) } } (fun x s w => Eff.perLane x s w (fun _ l =>
    .ok (l.setV w.alloc (hreg d) (f (l.v w.alloc (hreg d)) (l.v w.alloc (hreg c)))))) s

/-! ## Operations on values -/

/-- High 32 bits of the signed product (R126). -/
def mulhiI (a c : Word) : Word := BitVec.ofNat 32 (trunc (a.toInt * c.toInt) 64 / 2 ^ 32)

/-- High 32 bits of the unsigned product (R126). -/
def mulhiN (a c : Word) : Word := BitVec.ofNat 32 (a.toNat * c.toNat / 2 ^ 32)

/-- Trunc(|Sx(a, 32)|, 32) (R126). -/
def absW (a : Word) : Word := if a.msb then -a else a

/-- The one with the smaller signed value (R126). -/
def minI {n : Nat} (a c : BitVec n) : BitVec n := if c.toInt < a.toInt then c else a
/-- The one with the larger signed value (R126). -/
def maxI {n : Nat} (a c : BitVec n) : BitVec n := if a.toInt < c.toInt then c else a
/-- The one with the smaller unsigned value (R126). -/
def minN {n : Nat} (a c : BitVec n) : BitVec n := if c.toNat < a.toNat then c else a
/-- The one with the larger unsigned value (R126). -/
def maxN {n : Nat} (a c : BitVec n) : BitVec n := if a.toNat < c.toNat then c else a

/-- Number of one bits of the low `n` bits (R131). -/
def popCount (x : Nat) : Nat → Nat
  | 0 => 0
  | n + 1 => (if x.testBit n then 1 else 0) + popCount x n

/-- Number of leading zeros among the low `n` bits (R131). -/
def leadZeros (x : Nat) : Nat → Nat
  | 0 => 0
  | n + 1 => if x.testBit n then 0 else 1 + leadZeros x n

/-- The word with bit i moved to bit 31 - i (R131). -/
def bitRev (a : Word) : Word :=
  BitVec.ofNat 32 ((List.range 32).foldl (fun r i => if a.getLsbD i then r + 2 ^ (31 - i) else r) 0)

/-- Shift amount of a register: its low five bits (R131). -/
def sh5 (c : Word) : Nat := c.toNat % 32

/-- Shift left. -/
def shlW (a : Word) (n : Nat) : Word := a <<< n
/-- Shift right, zero-filled. -/
def shrW (a : Word) (n : Nat) : Word := a >>> n
/-- Shift right, sign-filled. -/
def sraW (a : Word) (n : Nat) : Word := a.sshiftRight n
/-- Rotate left. -/
def rotlW (a : Word) (n : Nat) : Word := a.rotateLeft n
/-- Rotate right. -/
def rotrW (a : Word) (n : Nat) : Word := a.rotateRight n

/-- Length of a bit field: Min(c[13:8], 32 - pos) (R133). -/
def fieldLen (c : Word) : Nat := min (bits c.toNat 13 8) (32 - bits c.toNat 4 0)

/-- `bfe.n` (R133). -/
def bfeNW (a c : Word) : Word := BitVec.ofNat 32 ((a.toNat >>> bits c.toNat 4 0) % 2 ^ fieldLen c)

/-- `bfe.i` (R133). -/
def bfeIW (a c : Word) : Word :=
  if fieldLen c = 0 then 0
  else BitVec.ofInt 32 (sx (a.toNat >>> bits c.toNat 4 0) (fieldLen c))

/-- `bfi` (R133). -/
def bfiW (d a c : Word) : Word :=
  let m : Word := BitVec.ofNat 32 ((2 ^ fieldLen c - 1) * 2 ^ bits c.toNat 4 0)
  (d &&& ~~~m) ||| ((a <<< bits c.toNat 4 0) &&& m)

/-- Result byte of `prmt` for a selector, given the byte below (R133). -/
def prmtByte (a : DWord) (v : Nat) (below : Option Byte) : Byte :=
  if v ≤ 7 then a.extractLsb' (8 * v) 8
  else if v = 9 then 0xFF
  else if v = 10 then (match below with | some r => if r.msb then 0xFF else 0 | none => 0)
  else 0

/-- `prmt` (R133). -/
def prmtW (a : DWord) (c : Word) : Word :=
  let b0 := prmtByte a (bits c.toNat 3 0) none
  let b1 := prmtByte a (bits c.toNat 7 4) (some b0)
  let b2 := prmtByte a (bits c.toNat 11 8) (some b1)
  let b3 := prmtByte a (bits c.toNat 15 12) (some b2)
  b3 ++ b2 ++ b1 ++ b0

/-! ## 32-bit arithmetic (R126) -/

/-- ADD. -/
def execAdd (d a c : VReg) (b : Bool) (s : State) : Out := lane3 b d a c (· + ·) s
/-- SUB. -/
def execSub (d a c : VReg) (b : Bool) (s : State) : Out := lane3 b d a c (· - ·) s
/-- MUL. -/
def execMul (d a c : VReg) (b : Bool) (s : State) : Out := lane3 b d a c (· * ·) s
/-- MULHI_I32. -/
def execMulhiI32 (d a c : VReg) (b : Bool) (s : State) : Out := lane3 b d a c mulhiI s
/-- MULHI_N32. -/
def execMulhiN32 (d a c : VReg) (b : Bool) (s : State) : Out := lane3 b d a c mulhiN s
/-- ABS. -/
def execAbs (d a : VReg) (b : Bool) (s : State) : Out := lane2 b d a absW s
/-- NEG. -/
def execNeg (d a : VReg) (b : Bool) (s : State) : Out := lane2 b d a (- ·) s
/-- MIN_I32. -/
def execMinI32 (d a c : VReg) (b : Bool) (s : State) : Out := lane3 b d a c minI s
/-- MAX_I32. -/
def execMaxI32 (d a c : VReg) (b : Bool) (s : State) : Out := lane3 b d a c maxI s
/-- MIN_N32. -/
def execMinN32 (d a c : VReg) (b : Bool) (s : State) : Out := lane3 b d a c minN s
/-- MAX_N32. -/
def execMaxN32 (d a c : VReg) (b : Bool) (s : State) : Out := lane3 b d a c maxN s

/-! ## Logic and shifts (R131, R132) -/

/-- AND. -/
def execAnd (d a c : VReg) (b : Bool) (s : State) : Out := lane3 b d a c (· &&& ·) s
/-- OR. -/
def execOr (d a c : VReg) (b : Bool) (s : State) : Out := lane3 b d a c (· ||| ·) s
/-- XOR. -/
def execXor (d a c : VReg) (b : Bool) (s : State) : Out := lane3 b d a c (· ^^^ ·) s
/-- ANDN. -/
def execAndn (d a c : VReg) (b : Bool) (s : State) : Out := lane3 b d a c (fun x y => x &&& ~~~y) s
/-- NOT. -/
def execNot (d a : VReg) (b : Bool) (s : State) : Out := lane2 b d a (~~~ ·) s
/-- POPC. -/
def execPopc (d a : VReg) (b : Bool) (s : State) : Out := lane2 b d a (fun x => BitVec.ofNat 32 (popCount x.toNat 32)) s
/-- CLZ. -/
def execClz (d a : VReg) (b : Bool) (s : State) : Out := lane2 b d a (fun x => BitVec.ofNat 32 (leadZeros x.toNat 32)) s
/-- BREV. -/
def execBrev (d a : VReg) (b : Bool) (s : State) : Out := lane2 b d a bitRev s
/-- SHL. -/
def execShl (d a c : VReg) (b : Bool) (s : State) : Out := lane3 b d a c (fun x y => shlW x (sh5 y)) s
/-- SHR. -/
def execShr (d a c : VReg) (b : Bool) (s : State) : Out := lane3 b d a c (fun x y => shrW x (sh5 y)) s
/-- SRA. -/
def execSra (d a c : VReg) (b : Bool) (s : State) : Out := lane3 b d a c (fun x y => sraW x (sh5 y)) s
/-- ROTL. -/
def execRotl (d a c : VReg) (b : Bool) (s : State) : Out := lane3 b d a c (fun x y => rotlW x (sh5 y)) s
/-- ROTR. -/
def execRotr (d a c : VReg) (b : Bool) (s : State) : Out := lane3 b d a c (fun x y => rotrW x (sh5 y)) s
/-- SHLI. -/
def execShli (d a : VReg) (n : BitVec 5) (b : Bool) (s : State) : Out := lane2 b d a (fun x => shlW x n.toNat) s
/-- SHRI. -/
def execShri (d a : VReg) (n : BitVec 5) (b : Bool) (s : State) : Out := lane2 b d a (fun x => shrW x n.toNat) s
/-- SRAI. -/
def execSrai (d a : VReg) (n : BitVec 5) (b : Bool) (s : State) : Out := lane2 b d a (fun x => sraW x n.toNat) s
/-- ROTLI. -/
def execRotli (d a : VReg) (n : BitVec 5) (b : Bool) (s : State) : Out := lane2 b d a (fun x => rotlW x n.toNat) s

/-! ## 64-bit arithmetic (R127) -/

/-- ADD64. -/
def execAdd64 (d a c : VReg) (b : Bool) (s : State) : Out := lane3P b d a c (1, 1, 2) (· + ·) s
/-- SUB64. -/
def execSub64 (d a c : VReg) (b : Bool) (s : State) : Out := lane3P b d a c (1, 1, 2) (· - ·) s
/-- MUL64. -/
def execMul64 (d a c : VReg) (b : Bool) (s : State) : Out := lane3P b d a c (2, 2, 4) (· * ·) s
/-- MIN_I64. -/
def execMinI64 (d a c : VReg) (b : Bool) (s : State) : Out := lane3P b d a c (1, 1, 2) minI s
/-- MAX_I64. -/
def execMaxI64 (d a c : VReg) (b : Bool) (s : State) : Out := lane3P b d a c (1, 1, 2) maxI s
/-- MIN_N64. -/
def execMinN64 (d a c : VReg) (b : Bool) (s : State) : Out := lane3P b d a c (1, 1, 2) minN s
/-- MAX_N64. -/
def execMaxN64 (d a c : VReg) (b : Bool) (s : State) : Out := lane3P b d a c (1, 1, 2) maxN s
/-- NEG64. -/
def execNeg64 (d a : VReg) (b : Bool) (s : State) : Out :=
  issue { b := b, u := { regs := useDA d a 2 } } (fun x s w => Eff.perLane x s w (fun _ l =>
    .ok (l.setVP w.alloc d (-(l.vp w.alloc a))))) s

/-! ## Carry and multiply-add (R128) -/

/-- The carry predicate p6 (R19). -/
def pCarry : PReg := 6

/-- ADDC. -/
def execAddc (d a c : VReg) (b : Bool) (s : State) : Out :=
  issue { b := b, u := { regs := useDAC d a c, ps := [pCarry], pd := [pCarry] } } (fun x s w =>
    Eff.perLane x s w (fun _ l =>
      let t := (l.v w.alloc a).toNat + (l.v w.alloc c).toNat + (l.pred pCarry).toNat
      .ok ((l.setV w.alloc d (BitVec.ofNat 32 t)).setPred pCarry (decide (2 ^ 32 ≤ t))))) s

/-- SUBB. -/
def execSubb (d a c : VReg) (b : Bool) (s : State) : Out :=
  issue { b := b, u := { regs := useDAC d a c, ps := [pCarry], pd := [pCarry] } } (fun x s w =>
    Eff.perLane x s w (fun _ l =>
      let t : Int := (l.v w.alloc a).toNat - (l.v w.alloc c).toNat - (l.pred pCarry).toNat
      .ok ((l.setV w.alloc d (BitVec.ofInt 32 t)).setPred pCarry (decide (t < 0))))) s

/-- MAD_I32. -/
def execMadI32 (d a c : VReg) (b : Bool) (s : State) : Out := lane4 b d a c (fun z x y => z + x * y) s

/-- MAD_I64. -/
def execMadI64 (d a c : VReg) (b : Bool) (s : State) : Out :=
  issue { b := b, u := { regs := useDDAC d a c 2 }, cyc := (2, 2, 4) } (fun x s w => Eff.perLane x s w (fun _ l =>
    .ok (l.setVP w.alloc d (l.vp w.alloc d + l.vp w.alloc a * l.vp w.alloc c)))) s

/-! ## Compares (R130) -/

/-- CMP_EQ. -/
def execCmpEq (d : PReg) (a c : VReg) (b : Bool) (s : State) : Out := lanePred b d a c (· == ·) s
/-- CMP_NE. -/
def execCmpNe (d : PReg) (a c : VReg) (b : Bool) (s : State) : Out := lanePred b d a c (· != ·) s
/-- CMP_LT_I. -/
def execCmpLtI (d : PReg) (a c : VReg) (b : Bool) (s : State) : Out := lanePred b d a c BitVec.slt s
/-- CMP_LE_I. -/
def execCmpLeI (d : PReg) (a c : VReg) (b : Bool) (s : State) : Out := lanePred b d a c BitVec.sle s
/-- CMP_LT_N. -/
def execCmpLtN (d : PReg) (a c : VReg) (b : Bool) (s : State) : Out := lanePred b d a c BitVec.ult s
/-- CMP_LE_N. -/
def execCmpLeN (d : PReg) (a c : VReg) (b : Bool) (s : State) : Out := lanePred b d a c BitVec.ule s
/-- CMP_TST. -/
def execCmpTst (d : PReg) (a c : VReg) (b : Bool) (s : State) : Out := lanePred b d a c (fun x y => x &&& y != 0) s
/-- CMP64_EQ. -/
def execCmp64Eq (d : PReg) (a c : VReg) (b : Bool) (s : State) : Out := lanePredP b d a c (· == ·) s
/-- CMP64_NE. -/
def execCmp64Ne (d : PReg) (a c : VReg) (b : Bool) (s : State) : Out := lanePredP b d a c (· != ·) s
/-- CMP64_LT_I. -/
def execCmp64LtI (d : PReg) (a c : VReg) (b : Bool) (s : State) : Out := lanePredP b d a c BitVec.slt s
/-- CMP64_LE_I. -/
def execCmp64LeI (d : PReg) (a c : VReg) (b : Bool) (s : State) : Out := lanePredP b d a c BitVec.sle s
/-- CMP64_LT_N. -/
def execCmp64LtN (d : PReg) (a c : VReg) (b : Bool) (s : State) : Out := lanePredP b d a c BitVec.ult s
/-- CMP64_LE_N. -/
def execCmp64LeN (d : PReg) (a c : VReg) (b : Bool) (s : State) : Out := lanePredP b d a c BitVec.ule s
/-- CMP64_TST. -/
def execCmp64Tst (d : PReg) (a c : VReg) (b : Bool) (s : State) : Out := lanePredP b d a c (fun x y => x &&& y != 0) s

/-! ## Bit fields, funnel shifts, permute, select (R133, R134) -/

/-- BFE_N. -/
def execBfeN (d a c : VReg) (b : Bool) (s : State) : Out := lane3 b d a c bfeNW s
/-- BFE_I. -/
def execBfeI (d a c : VReg) (b : Bool) (s : State) : Out := lane3 b d a c bfeIW s
/-- BFI. -/
def execBfi (d a c : VReg) (b : Bool) (s : State) : Out := lane4 b d a c bfiW s

/-- D single, A a pair, C single: the funnel shifts and `prmt` (R133). -/
def lanePairA (b : Bool) (d a c : VReg) (f : DWord → Word → Word) (s : State) : Out :=
  issue { b := b, u := { regs := [⟨1, d, 1, false, true⟩, ⟨2, a, 2, true, false⟩, ⟨4, c, 1, true, false⟩] } }
    (fun x s w => Eff.perLane x s w (fun _ l => .ok (l.setV w.alloc d (f (l.vp w.alloc a) (l.v w.alloc c))))) s

/-- FSHL. -/
def execFshl (d a c : VReg) (b : Bool) (s : State) : Out :=
  lanePairA b d a c (fun p y => (p <<< sh5 y).extractLsb' 32 32) s
/-- FSHR. -/
def execFshr (d a c : VReg) (b : Bool) (s : State) : Out :=
  lanePairA b d a c (fun p y => (p >>> sh5 y).extractLsb' 0 32) s
/-- PRMT. -/
def execPrmt (d a c : VReg) (b : Bool) (s : State) : Out := lanePairA b d a c prmtW s

/-- SEL. -/
def execSel (p : PReg) (d a c : VReg) (b : Bool) (s : State) : Out :=
  issue { b := b, u := { regs := useDAC d a c, ps := [p] } } (fun x s w => Eff.perLane x s w (fun _ l =>
    .ok (l.setV w.alloc d (if l.pred p then l.v w.alloc a else l.v w.alloc c)))) s

/-! ## Immediates and addresses (R135 to R137) -/

/-- ADDI. -/
def execAddi (d a : VReg) (imm : BitVec 10) (b : Bool) (s : State) : Out := lane2 b d a (· + imm.signExtend 32) s
/-- ANDI. -/
def execAndi (d a : VReg) (imm : BitVec 10) (b : Bool) (s : State) : Out := lane2 b d a (· &&& imm.signExtend 32) s
/-- ORI. -/
def execOri (d a : VReg) (imm : BitVec 10) (b : Bool) (s : State) : Out := lane2 b d a (· ||| imm.signExtend 32) s
/-- XORI. -/
def execXori (d a : VReg) (imm : BitVec 10) (b : Bool) (s : State) : Out := lane2 b d a (· ^^^ imm.signExtend 32) s

/-- LI: V(D, L) := Sext(imm17) (R60, R136). -/
def execLi (d : VReg) (imm : BitVec 17) (b : Bool) (s : State) : Out :=
  issue { b := b, u := { regs := [⟨1, d, 1, false, true⟩] } } (fun x s w => Eff.perLane x s w (fun _ l =>
    .ok (l.setV w.alloc d (imm.signExtend 32)))) s

/-- LIH: bits 31:15 of V(D, L) become the immediate (R60, R136). -/
def execLih (d : VReg) (imm : BitVec 17) (b : Bool) (s : State) : Out :=
  issue { b := b, u := { regs := [⟨1, d, 1, true, true⟩] } } (fun x s w => Eff.perLane x s w (fun _ l =>
    .ok (l.setV w.alloc d (imm ++ (l.v w.alloc d).extractLsb' 0 15)))) s

/-- LEA. -/
def execLea (d a c : VReg) (sh : BitVec 3) (b : Bool) (s : State) : Out :=
  issue { b := b, u := { regs := [⟨1, d, 2, false, true⟩, ⟨2, a, 2, true, false⟩, ⟨4, c, 1, true, false⟩] } }
    (fun x s w => Eff.perLane x s w (fun _ l =>
      .ok (l.setVP w.alloc d (l.vp w.alloc a + ((l.v w.alloc c).signExtend 64 <<< sh.toNat))))) s

/-- LEAI. -/
def execLeai (d a : VReg) (imm : BitVec 10) (b : Bool) (s : State) : Out :=
  issue { b := b, u := { regs := useDA d a 2 } } (fun x s w => Eff.perLane x s w (fun _ l =>
    .ok (l.setVP w.alloc d (l.vp w.alloc a + imm.signExtend 64)))) s

/-! ## Index registers (R138, R139) -/

/-- XSET. -/
def execXset (d : XReg) (a : VReg) (imm : BitVec 10) (b : Bool) (s : State) : Out :=
  issue { b := b, u := { regs := [⟨2, a, 1, true, false⟩], xd := true } } (fun x s w => Eff.perLane x s w (fun _ l =>
    .ok { l with xr := l.xr.set d.val ((l.v w.alloc a + imm.signExtend 32).extractLsb' 0 16) })) s

/-- XGET. -/
def execXget (d : VReg) (a : XReg) (b : Bool) (s : State) : Out :=
  issue { b := b, u := { regs := [⟨1, d, 1, false, true⟩] } } (fun x s w => Eff.perLane x s w (fun _ l =>
    .ok (l.setV w.alloc d ((l.xr.getD a.val 0).signExtend 32)))) s

/-! ## Scalars (R140 to R143) -/

/-- SADD. -/
def execSadd (d a c : SReg) (b : Bool) (s : State) : Out := scalar3 b d a c (· + ·) s
/-- SSUB. -/
def execSsub (d a c : SReg) (b : Bool) (s : State) : Out := scalar3 b d a c (· - ·) s
/-- SMUL. -/
def execSmul (d a c : SReg) (b : Bool) (s : State) : Out := scalar3 b d a c (· * ·) s
/-- SAND. -/
def execSand (d a c : SReg) (b : Bool) (s : State) : Out := scalar3 b d a c (· &&& ·) s
/-- SOR. -/
def execSor (d a c : SReg) (b : Bool) (s : State) : Out := scalar3 b d a c (· ||| ·) s
/-- SXOR. -/
def execSxor (d a c : SReg) (b : Bool) (s : State) : Out := scalar3 b d a c (· ^^^ ·) s
/-- SSHL. -/
def execSshl (d a c : SReg) (b : Bool) (s : State) : Out := scalar3 b d a c (fun x y => shlW x (sh5 y)) s
/-- SSHR. -/
def execSshr (d a c : SReg) (b : Bool) (s : State) : Out := scalar3 b d a c (fun x y => shrW x (sh5 y)) s

/-- SADDI. -/
def execSaddi (d a : SReg) (imm : BitVec 10) (b : Bool) (s : State) : Out :=
  issue { b := b, u := { ss := [a.val], sd := [d.val] }, cyc := (1, 1, 1), tx := false }
    (fun _ s w => { s := s, w := w.setS d.val (w.sv a.val + imm.signExtend 32) }) s

/-- SLI. -/
def execSli (d : SReg) (imm : BitVec 17) (b : Bool) (s : State) : Out :=
  issue { b := b, u := { sd := [d.val] }, cyc := (1, 1, 1), tx := false }
    (fun _ s w => { s := s, w := w.setS d.val (imm.signExtend 32) }) s

/-- V2S: reads the lowest active lane alone; an indexed A is resolved, and its checks are made, in that lane only (R143). Where ACTIVE lanes of
its entry abort, that is the lowest of the rest (DESIGN CHOICE, log entry 34). -/
def execV2s (d : SReg) (a : VReg) (b : Bool) (s : State) : Out :=
  let one : Uses := { regs := [⟨2, a, 1, true, false⟩] }
  let u : Uses := match a with
    | .v _ => { regs := [⟨2, a, 1, false, false⟩], sd := [d.val] }
    | _ => { sd := [d.val] }
  issue { b := b, u := u, cyc := (1, 1, 1), tx := false } (fun x s w =>
    let L := lowestLane x.mask
    match laneCheck { b := b, u := one } w L with
    | some t => { s := s, w := w, traps := [(L, t)] }
    | none =>
      let y := readSoft { b := b, u := one } s w (laneBit L)
      { s := y.1, w := y.2.setS d.val ((w.lane L).v w.alloc a) }) s

/-- S2V. -/
def execS2v (d : VReg) (a : SReg) (b : Bool) (s : State) : Out :=
  issue { b := b, u := { regs := [⟨1, d, 1, false, true⟩], ss := [a.val] } } (fun x s w =>
    Eff.perLane x s w (fun _ l => .ok (l.setV w.alloc d (w.sv a.val)))) s

/-- SMOV. -/
def execSmov (d a : SReg) (b : Bool) (s : State) : Out :=
  issue { b := b, u := { ss := [a.val], sd := [d.val] }, cyc := (1, 1, 1), tx := false }
    (fun _ s w => { s := s, w := w.setS d.val (w.sv a.val) }) s

/-- SCMP_EQ. -/
def execScmpEq (d : PReg) (a c : SReg) (b : Bool) (s : State) : Out := scalarPred b d a c (· == ·) s
/-- SCMP_LT_I. -/
def execScmpLtI (d : PReg) (a c : SReg) (b : Bool) (s : State) : Out := scalarPred b d a c BitVec.slt s
/-- SCMP_LT_N. -/
def execScmpLtN (d : PReg) (a c : SReg) (b : Bool) (s : State) : Out := scalarPred b d a c BitVec.ult s
/-- SCMP_NE. -/
def execScmpNe (d : PReg) (a c : SReg) (b : Bool) (s : State) : Out := scalarPred b d a c (· != ·) s

/-! ## 16-bit forms (R63) -/

/-- MOV_16: D := C, as the OR of C with vz does. -/
def execMov16 (d c : LReg) (b : Bool) (s : State) : Out :=
  issue { b := b, len := 2, u := { regs := useDA (hreg d) (hreg c) } } (fun x s w => Eff.perLane x s w (fun _ l =>
    .ok (l.setV w.alloc (hreg d) (l.v w.alloc (hreg c))))) s
/-- ADD_16. -/
def execAdd16 (d c : LReg) (b : Bool) (s : State) : Out := half2 b d c (· + ·) s
/-- SUB_16. -/
def execSub16 (d c : LReg) (b : Bool) (s : State) : Out := half2 b d c (· - ·) s
/-- AND_16. -/
def execAnd16 (d c : LReg) (b : Bool) (s : State) : Out := half2 b d c (· &&& ·) s
/-- OR_16. -/
def execOr16 (d c : LReg) (b : Bool) (s : State) : Out := half2 b d c (· ||| ·) s
/-- XOR_16. -/
def execXor16 (d c : LReg) (b : Bool) (s : State) : Out := half2 b d c (· ^^^ ·) s
/-- SHL_16. -/
def execShl16 (d c : LReg) (b : Bool) (s : State) : Out := half2 b d c (fun x y => shlW x (sh5 y)) s
/-- SHR_16. -/
def execShr16 (d c : LReg) (b : Bool) (s : State) : Out := half2 b d c (fun x y => shrW x (sh5 y)) s
/-- MUL_16. -/
def execMul16 (d c : LReg) (b : Bool) (s : State) : Out := half2 b d c (· * ·) s
/-- ADDI_16: D := D + Sext(imm5). -/
def execAddi16 (d : LReg) (imm : BitVec 5) (b : Bool) (s : State) : Out :=
  issue { b := b, len := 2, u := { regs := [⟨1, (hreg d), 1, true, true⟩] } } (fun x s w => Eff.perLane x s w (fun _ l =>
    .ok (l.setV w.alloc (hreg d) (l.v w.alloc (hreg d) + imm.signExtend 32)))) s

end Sys2Proof.Machine
end

