-- ==== Sys2Proof/Machine/Num.lean ====
section
/-! DEFINITION. Floating-point numbers: exact values, the formats of R94 to R96, rounding and its flags (R100 to R107). -/
namespace Sys2Proof.Machine

open Sys2Proof

/-! ## Exact values -/

/-- An exact number: (-1)^neg × m × 2^e. A zero keeps its sign. -/
structure Dy where
  neg : Bool
  m : Nat
  e : Int
deriving DecidableEq, Repr

/-- A floating-point datum. -/
inductive FV where
  /-- A NaN, signalling or quiet (R94). -/
  | nan (signalling : Bool)
  /-- An infinity. -/
  | inf (neg : Bool)
  /-- A number. -/
  | num (x : Dy)
deriving DecidableEq, Repr

/-- The zero of a sign. -/
def Dy.zero (neg : Bool) : Dy := ⟨neg, 0, 0⟩

/-- Signed multiple of 2^q that equals the number, for q ≤ e. -/
def Dy.scaled (x : Dy) (q : Int) : Int :=
  let n : Int := ((x.m * 2 ^ (x.e - q).toNat : Nat) : Int)
  if x.neg then -n else n

/-- A signed multiple of 2^q as a number; zero is +0. -/
def Dy.ofInt (v : Int) (q : Int) : Dy := ⟨decide (v < 0), v.natAbs, q⟩

/-- Floor(log2 |x|) of a number that is not zero. -/
def Dy.log2 (x : Dy) : Int := (Nat.log2 x.m : Int) + x.e

/-- The exact sum of numbers, with the sign of a zero as R148 says. -/
def Dy.sum (xs : List Dy) : Dy :=
  let q := xs.foldl (fun q x => if x.m = 0 then q else min q x.e) (xs.foldl (fun q x => max q x.e) 0)
  let t := xs.foldl (fun t x => if x.m = 0 then t else t + x.scaled q) (0 : Int)
  if t = 0 then ⟨xs.all (fun x => x.m == 0 && x.neg), 0, 0⟩ else .ofInt t q

/-- The exact product (R148: the sign is the exclusive OR). -/
def Dy.mul (x y : Dy) : Dy := ⟨x.neg != y.neg, x.m * y.m, x.e + y.e⟩

/-- The number with its sign flipped. -/
def Dy.flip (x : Dy) : Dy := { x with neg := !x.neg }

/-- x < y of exact numbers; zeros are equal. -/
def Dy.lt (x y : Dy) : Bool :=
  let q := min x.e y.e
  decide (x.scaled q < y.scaled q)

/-- x = y of exact numbers; zeros are equal. -/
def Dy.same (x y : Dy) : Bool :=
  let q := min x.e y.e
  decide (x.scaled q = y.scaled q)

/-! ## Formats -/

/-- What the top exponent of a format encodes (R94, R95). -/
inductive Top where
  /-- Infinity and NaN. -/
  | ieee
  /-- Numbers but for S.1111.111, NaN: e4m3. -/
  | e4m3
  /-- Numbers: e2m3, e3m2, e2m1. -/
  | numbers
deriving DecidableEq, Repr

/-- A floating-point format: exponent bits, fraction bits, bias, and its special encodings (R94, R95). -/
structure Fmt where
  eb : Nat
  mb : Nat
  bias : Nat
  top : Top
  /-- DAZ and FTZ apply: f64, f32, f16, bf16 (R106). -/
  wide : Bool
deriving DecidableEq, Repr

/-- f64 (R94). -/
def f64 : Fmt := ⟨11, 52, 1023, .ieee, true⟩
/-- f32 (R94). -/
def f32 : Fmt := ⟨8, 23, 127, .ieee, true⟩
/-- f16 (R94). -/
def f16 : Fmt := ⟨5, 10, 15, .ieee, true⟩
/-- bf16 (R94). -/
def bf16 : Fmt := ⟨8, 7, 127, .ieee, true⟩
/-- e4m3 (R95). -/
def e4m3 : Fmt := ⟨4, 3, 7, .e4m3, false⟩
/-- e5m2 (R95). -/
def e5m2 : Fmt := ⟨5, 2, 15, .ieee, false⟩
/-- e2m3 (R95). -/
def e2m3 : Fmt := ⟨2, 3, 1, .numbers, false⟩
/-- e3m2 (R95). -/
def e3m2 : Fmt := ⟨3, 2, 3, .numbers, false⟩
/-- e2m1 (R95). -/
def e2m1 : Fmt := ⟨2, 1, 1, .numbers, false⟩

/-- Bits of the encoding. -/
def Fmt.width (f : Fmt) : Nat := 1 + f.eb + f.mb
/-- The sign bit of an encoding. -/
def Fmt.signBit (f : Fmt) : Nat := 2 ^ (f.eb + f.mb)
/-- Encoding of +infinity, for an IEEE format. -/
def Fmt.infBits (f : Fmt) : Nat := (2 ^ f.eb - 1) * 2 ^ f.mb
/-- Encoding of the largest finite number (R94, R95). -/
def Fmt.maxBits (f : Fmt) : Nat :=
  match f.top with
  | .ieee => f.infBits - 1
  | .e4m3 => f.signBit - 2
  | .numbers => f.signBit - 1
/-- The NaN that the device writes; e2m3, e3m2 and e2m1 have none (R94, R95, R97). -/
def Fmt.nanBits (f : Fmt) : Nat :=
  match f.top with
  | .ieee => f.infBits + 2 ^ (f.mb - 1)
  | .e4m3 => f.signBit - 1
  | .numbers => 0
/-- Exponent of the smallest subnormal. -/
def Fmt.qmin (f : Fmt) : Int := 1 - (f.bias : Int) - f.mb
/-- Encoding with a sign. -/
def Fmt.signed (f : Fmt) (neg : Bool) (n : Nat) : Nat := if neg then n + f.signBit else n

/-- The datum that an encoding holds (R94, R95). The NaNs of e5m2 and e4m3 count as quiet (R155). -/
def Fmt.value (f : Fmt) (b : Nat) : FV :=
  let n := b % 2 ^ f.width
  let neg := n.testBit (f.eb + f.mb)
  let E := bits n (f.eb + f.mb - 1) f.mb
  let M := n % 2 ^ f.mb
  let special : Bool := match f.top with
    | .ieee => E == 2 ^ f.eb - 1
    | .e4m3 => E == 15 && M == 7
    | .numbers => false
  if special then
    if f.top = .ieee ∧ M = 0 then .inf neg
    else .nan (f.wide && !M.testBit (f.mb - 1))
  else if E = 0 then .num ⟨neg, M, f.qmin⟩
  else .num ⟨neg, M + 2 ^ f.mb, f.qmin + (E - 1 : Nat)⟩

/-- A number below the smallest normal that is not zero. -/
def Fmt.subnormal (f : Fmt) (b : Nat) : Bool := bits b (f.eb + f.mb - 1) f.mb == 0 && b % 2 ^ f.mb != 0

/-- The datum an input holds under DAZ (R106). -/
def Fmt.read (f : Fmt) (daz : Bool) (b : Nat) : FV :=
  if daz && f.wide && f.subnormal b then .num (.zero (b.testBit (f.eb + f.mb))) else f.value b

/-! ## Rounding -/

/-- A rounding mode in force: the mode, and the random word of SR (R104). -/
structure Mode where
  md : Rnd
  w : Nat := 0
deriving DecidableEq, Repr

/-- Round to nearest even (R101). -/
def Mode.rne : Mode := { md := .rne }

/-- Rounds m × 2^(-sh) to an integer: the integer, and whether it is inexact (R100, R104). -/
def roundMag (md : Mode) (neg : Bool) (m sh : Nat) : Nat × Bool :=
  let y := m / 2 ^ sh
  let r := m % 2 ^ sh
  if r = 0 then (y, false)
  else
    let up : Bool := match md.md with
      | .rne => decide (2 ^ sh < 2 * r) || (decide (2 * r = 2 ^ sh) && y % 2 == 1)
      | .rz => false
      | .rdn => neg
      | .rup => !neg
      | .rna => decide (2 ^ sh ≤ 2 * r)
      | .sr => decide (md.w % 2 ^ 24 < r * 2 ^ 24 / 2 ^ sh)
      | .dyn => false
    (if up then y + 1 else y, true)

/-- Rounds a number to a multiple of 2^q: the multiple, and whether it is inexact. -/
def Dy.roundAt (md : Mode) (x : Dy) (q : Int) : Nat × Bool :=
  if q ≤ x.e then (x.m * 2 ^ (x.e - q).toNat, false) else roundMag md x.neg x.m (q - x.e).toNat

/-- Rounds an exact number to a format: the encoding and the flags (R102, R104 to R106). -/
def Fmt.round (f : Fmt) (md : Mode) (ftz : Bool) (x : Dy) : Nat × FFlags :=
  if x.m = 0 then (f.signed x.neg 0, 0)
  else
    let qn : Int := x.log2 - f.mb
    let q := max qn f.qmin
    let (y, inexact) := x.roundAt md q
    let n := (q - f.qmin).toNat * 2 ^ f.mb + y
    let fl : FFlags := if inexact then fNX else 0
    if f.maxBits < n then
      let toInf : Bool := f.top == .ieee && (match md.md with
        | .rz => false
        | .rdn => x.neg
        | .rup => !x.neg
        | _ => true)
      (f.signed x.neg (if toInf then f.infBits else f.maxBits), fOF ||| fNX)
    else
      let u := x.roundAt md qn
      let tiny : Bool := decide (qn < f.qmin - 1) || (decide (qn < f.qmin) && decide (u.1 < 2 ^ (f.mb + 1)))
      if tiny && ftz && f.wide then (f.signed x.neg 0, fUF ||| fNX)
      else (f.signed x.neg n, if tiny && inexact then fl ||| fUF else fl)

/-- A result of an operation of an IEEE format: rounded, infinite, or the canonical NaN. -/
def Fmt.result (f : Fmt) (md : Mode) (ftz : Bool) : FV → Nat × FFlags
  | .nan _ => (f.nanBits, 0)
  | .inf neg => (f.signed neg f.infBits, 0)
  | .num x => f.round md ftz x

end Sys2Proof.Machine
end

