-- ==== Sys2Proof/Machine/Float.lean ====
section
/-! DEFINITION. Floating-point arithmetic, compares and dot products (R146 to R153, R161, R162), with the 16-bit forms (R63). -/
namespace Sys2Proof.Machine

open Sys2Proof

/-! ## Operations on data -/

/-- A result with its flags. -/
abbrev Enc := Nat × FFlags

/-- The datum is a NaN. -/
def FV.isNan : FV → Bool
  | .nan _ => true
  | _ => false

/-- The datum is a signalling NaN. -/
def FV.isSnan : FV → Bool
  | .nan s => s
  | _ => false

/-- NV where an input is a signalling NaN (R107). -/
def snanFlag (xs : List FV) : FFlags := if xs.any FV.isSnan then fNV else 0

/-- The datum negated. -/
def FV.flip : FV → FV
  | .nan s => .nan s
  | .inf n => .inf (!n)
  | .num x => .num x.flip

/-- The product of data that are no NaN; a NaN stands for 0 × infinity (R107, R148). -/
def FV.mul (x y : FV) : FV :=
  match x, y with
  | .num a, .num b => .num (a.mul b)
  | .inf n, .inf m => .inf (n != m)
  | .inf n, .num b => if b.m = 0 then .nan false else .inf (n != b.neg)
  | .num a, .inf m => if a.m = 0 then .nan false else .inf (a.neg != m)
  | .nan s, _ => .nan s
  | _, .nan s => .nan s

/-- The sum of data that are no NaN; a NaN stands for infinity - infinity (R107, R110, R148). -/
def FV.sum (xs : List FV) : FV :=
  let pos := xs.any (fun x => x == .inf false)
  let neg := xs.any (fun x => x == .inf true)
  if pos && neg then .nan false
  else if pos then .inf false
  else if neg then .inf true
  else .num (Dy.sum (xs.filterMap (fun x => match x with | .num d => some d | _ => none)))

/-- Finishes an operation whose inputs hold no NaN: an invalid one gives the canonical NaN and NV (R107). -/
def Fmt.finish (f : Fmt) (ftz : Bool) (r : FV) : Enc :=
  if r.isNan then (f.nanBits, fNV) else f.result .rne ftz r

/-- Applies an operation unless an input is a NaN, which gives the canonical NaN (R97, R107). -/
def Fmt.guard (f : Fmt) (xs : List FV) (r : Enc) : Enc :=
  if xs.any FV.isNan then (f.nanBits, snanFlag xs) else r

/-- Round(a + c). -/
def Fmt.add (f : Fmt) (daz ftz : Bool) (a c : Nat) : Enc :=
  let x := f.read daz a
  let y := f.read daz c
  f.guard [x, y] (f.finish ftz (FV.sum [x, y]))

/-- Round(a - c). -/
def Fmt.sub (f : Fmt) (daz ftz : Bool) (a c : Nat) : Enc :=
  let x := f.read daz a
  let y := f.read daz c
  f.guard [x, y] (f.finish ftz (FV.sum [x, y.flip]))

/-- Round(a × c). -/
def Fmt.mul (f : Fmt) (daz ftz : Bool) (a c : Nat) : Enc :=
  let x := f.read daz a
  let y := f.read daz c
  f.guard [x, y] (f.finish ftz (x.mul y))

/-- Round(±(a × c) ± d), with one rounding (R110, R152): a product 0 × infinity gives NV even beside a quiet NaN. -/
def Fmt.fma (f : Fmt) (negP negD daz ftz : Bool) (a c d : Nat) : Enc :=
  let x := f.read daz a
  let y := f.read daz c
  let z := f.read daz d
  let p := x.mul y
  if !x.isNan && !y.isNan && p.isNan then (f.nanBits, fNV)
  else f.guard [x, y, z] (f.finish ftz (FV.sum [if negP then p.flip else p, if negD then z.flip else z]))

/-- The input itself, with DAZ (R150). -/
def Fmt.keep (f : Fmt) (daz : Bool) (a : Nat) : Nat :=
  if daz && f.wide && f.subnormal a then f.signed (a.testBit (f.eb + f.mb)) 0 else a % 2 ^ f.width

/-- x < y of data that are no NaN; zeros are equal. -/
def FV.lt : FV → FV → Bool
  | .num a, .num b => a.lt b
  | .inf n, .inf m => n && !m
  | .inf n, .num _ => n
  | .num _, .inf m => !m
  | _, _ => false

/-- x = y of data that are no NaN; zeros are equal. -/
def FV.same : FV → FV → Bool
  | .num a, .num b => a.same b
  | .inf n, .inf m => n == m
  | _, _ => false

/-- The datum has its sign bit set. -/
def FV.sign : FV → Bool
  | .nan _ => false
  | .inf n => n
  | .num x => x.neg

/-- minimumNumber or maximumNumber of IEEE 754-2019, with -0 below +0 (R107, R150). -/
def Fmt.minMax (f : Fmt) (wantMax daz : Bool) (a c : Nat) : Enc :=
  let x := f.read daz a
  let y := f.read daz c
  let fl := snanFlag [x, y]
  if x.isNan && y.isNan then (f.nanBits, fl)
  else if x.isNan then (f.keep daz c, fl)
  else if y.isNan then (f.keep daz a, fl)
  else
    let less := x.lt y || (x.same y && x.sign && !y.sign)
    (f.keep daz (if less == wantMax then c else a), 0)

/-- |a| (R150). -/
def Fmt.absV (f : Fmt) (daz : Bool) (a : Nat) : Enc :=
  let x := f.read daz a
  f.guard [x] (f.keep daz a % f.signBit, 0)

/-- -a (R150). -/
def Fmt.negV (f : Fmt) (daz : Bool) (a : Nat) : Enc :=
  let x := f.read daz a
  f.guard [x] (f.keep daz a ^^^ f.signBit, 0)

/-- Class mask (R151). -/
def Fmt.classMask (f : Fmt) (a : Nat) : Nat :=
  match f.value a with
  | .nan s => if s then 2 ^ 8 else 2 ^ 9
  | .inf n => if n then 2 ^ 0 else 2 ^ 7
  | .num x =>
    if x.m = 0 then (if x.neg then 2 ^ 3 else 2 ^ 4)
    else if f.subnormal a then (if x.neg then 2 ^ 2 else 2 ^ 5)
    else if x.neg then 2 ^ 1 else 2 ^ 6

/-- The compares of FCMP (R153). -/
inductive FCmp where
  | eq | lt | le | un
deriving DecidableEq, Repr

/-- Result and flags of a compare (R153). -/
def Fmt.cmp (f : Fmt) (k : FCmp) (daz : Bool) (a c : Nat) : Bool × FFlags :=
  let x := f.read daz a
  let y := f.read daz c
  let anyNan := x.isNan || y.isNan
  match k with
  | .eq => (!anyNan && x.same y, snanFlag [x, y])
  | .lt => (!anyNan && x.lt y, if anyNan then fNV else 0)
  | .le => (!anyNan && (x.lt y || x.same y), if anyNan then fNV else 0)
  | .un => (anyNan, snanFlag [x, y])

/-- The f32 dot product of packed elements with the accumulator: one rounding, NaN and NV for every NaN (R110, R162). -/
def fdot (f : Fmt) (w n : Nat) (a c d : Word) : Enc :=
  let el (x : Word) (k : Nat) : FV := f.value (bits x.toNat (w * k + w - 1) (w * k))
  let ps := (List.range n).map (fun k => (el a k).mul (el c k))
  let ts := ps ++ [f32.value d.toNat]
  if ts.any FV.isNan then (f32.nanBits, fNV) else f32.finish false (FV.sum ts)

/-! ## Shapes -/

/-- An f32 operation of A and C: FARITH32 (R149). -/
def f32Op2 (b : Bool) (d a c : VReg) (op : Bool → Bool → Nat → Nat → Enc) (s : State) : Out :=
  issue { b := b, u := { regs := useDAC d a c, fl := true } } (fun x s w => Eff.perLane x s w (fun _ l =>
    let r := op (wmDaz w.wmode) (wmFtz w.wmode) (l.v w.alloc a).toNat (l.v w.alloc c).toNat
    flagged w.wmode l (l.setV w.alloc d (BitVec.ofNat 32 r.1)) r.2)) s

/-- An f32 operation of A. -/
def f32Op1 (b : Bool) (d a : VReg) (op : Bool → Bool → Nat → Enc) (s : State) : Out :=
  issue { b := b, u := { regs := useDA d a, fl := true } } (fun x s w => Eff.perLane x s w (fun _ l =>
    let r := op (wmDaz w.wmode) (wmFtz w.wmode) (l.v w.alloc a).toNat
    flagged w.wmode l (l.setV w.alloc d (BitVec.ofNat 32 r.1)) r.2)) s

/-- An f32 operation of D, A and C: FFMA32 and DOT (R152, R161). -/
def f32Op3 (b : Bool) (d a c : VReg) (op : Bool → Bool → Word → Word → Word → Enc) (s : State) : Out :=
  issue { b := b, u := { regs := useDDAC d a c, fl := true } } (fun x s w => Eff.perLane x s w (fun _ l =>
    let r := op (wmDaz w.wmode) (wmFtz w.wmode) (l.v w.alloc a) (l.v w.alloc c) (l.v w.alloc d)
    flagged w.wmode l (l.setV w.alloc d (BitVec.ofNat 32 r.1)) r.2)) s

/-- Two 16-bit results as one word, with the OR of their flags (R108). -/
def pack2 (lo hi : Enc) : Enc := (lo.1 % 2 ^ 16 + hi.1 * 2 ^ 16, lo.2 ||| hi.2)

/-- A packed 16-bit operation of A and C: FARITH16, FARITHBF (R149). -/
def packed2 (b : Bool) (d a c : VReg) (op : Bool → Bool → Nat → Nat → Enc) (s : State) : Out :=
  f32Op2 b d a c (fun daz ftz x y =>
    pack2 (op daz ftz (x % 2 ^ 16) (y % 2 ^ 16)) (op daz ftz (x / 2 ^ 16) (y / 2 ^ 16))) s

/-- A packed 16-bit operation of A. -/
def packed1 (b : Bool) (d a : VReg) (op : Bool → Bool → Nat → Enc) (s : State) : Out :=
  f32Op1 b d a (fun daz ftz x => pack2 (op daz ftz (x % 2 ^ 16)) (op daz ftz (x / 2 ^ 16))) s

/-- A class mask (R151): no flag. -/
def classOp (b : Bool) (d a : VReg) (op : Nat → Nat) (s : State) : Out :=
  issue { b := b, u := { regs := useDA d a } } (fun x s w => Eff.perLane x s w (fun _ l =>
    .ok (l.setV w.alloc d (BitVec.ofNat 32 (op (l.v w.alloc a).toNat))))) s

/-- An f64 operation of pairs A and C: FARITH64 (R149). -/
def f64Op2 (b : Bool) (d a c : VReg) (op : Bool → Bool → Nat → Nat → Enc) (s : State) : Out :=
  issue { b := b, u := { regs := useDAC d a c 2, fl := true }, cyc := (2, 4, 8) } (fun x s w => Eff.perLane x s w (fun _ l =>
    let r := op (wmDaz w.wmode) (wmFtz w.wmode) (l.vp w.alloc a).toNat (l.vp w.alloc c).toNat
    flagged w.wmode l (l.setVP w.alloc d (BitVec.ofNat 64 r.1)) r.2)) s

/-- An f64 operation of pair A. -/
def f64Op1 (b : Bool) (d a : VReg) (op : Bool → Bool → Nat → Enc) (s : State) : Out :=
  issue { b := b, u := { regs := useDA d a 2, fl := true }, cyc := (2, 4, 8) } (fun x s w => Eff.perLane x s w (fun _ l =>
    let r := op (wmDaz w.wmode) (wmFtz w.wmode) (l.vp w.alloc a).toNat
    flagged w.wmode l (l.setVP w.alloc d (BitVec.ofNat 64 r.1)) r.2)) s

/-- A compare that writes a predicate (R153). -/
def fcmpOp (b : Bool) (d : PReg) (a c : VReg) (f : Fmt) (n : Nat) (k : FCmp) (s : State) : Out :=
  issue { b := b, cyc := if n = 2 then (2, 4, 8) else (1, 1, 2)
          u := { regs := [⟨2, a, n, true, false⟩, ⟨4, c, n, true, false⟩], pd := [d], fl := true } }
    (fun x s w => Eff.perLane x s w (fun _ l =>
      let v (r : VReg) : Nat := if n = 2 then (l.vp w.alloc r).toNat else (l.v w.alloc r).toNat
      let r := f.cmp k (wmDaz w.wmode) (v a) (v c)
      flagged w.wmode l (l.setPred d r.1) r.2)) s

/-- A 16-bit f32 instruction: D := f(D, C) (R63). -/
def halfF2 (b : Bool) (d c : LReg) (op : Bool → Bool → Nat → Nat → Enc) (s : State) : Out :=
  issue { b := b, len := 2, u := { regs := useDDAC (hreg d) (hreg d) (hreg c), fl := true } }
    (fun x s w => Eff.perLane x s w (fun _ l =>
      let r := op (wmDaz w.wmode) (wmFtz w.wmode) (l.v w.alloc (hreg d)).toNat (l.v w.alloc (hreg c)).toNat
      flagged w.wmode l (l.setV w.alloc (hreg d) (BitVec.ofNat 32 r.1)) r.2)) s

/-- An integer dot product: D + Σ a_k c_k modulo 2^32 (R110, R161). -/
def dotOp (b : Bool) (d a c : VReg) (w n : Nat) (signed : Bool) (s : State) : Out :=
  let el (x : Word) (k : Nat) : Int :=
    let e := bits x.toNat (w * k + w - 1) (w * k)
    if signed then sx e w else e
  lane4 b d a c (fun z x y => z + BitVec.ofInt 32 ((List.range n).foldl (fun t k => t + el x k * el y k) 0)) s

/-! ## FARITH32, FFMA32 (R149 to R152) -/

/-- FADD. -/
def execFadd (d a c : VReg) (b : Bool) (s : State) : Out :=
  f32Op2 b d a c f32.add s
/-- FSUB. -/
def execFsub (d a c : VReg) (b : Bool) (s : State) : Out :=
  f32Op2 b d a c f32.sub s
/-- FMUL. -/
def execFmul (d a c : VReg) (b : Bool) (s : State) : Out :=
  f32Op2 b d a c f32.mul s
/-- FMIN. -/
def execFmin (d a c : VReg) (b : Bool) (s : State) : Out :=
  f32Op2 b d a c (fun daz _ => f32.minMax false daz) s
/-- FMAX. -/
def execFmax (d a c : VReg) (b : Bool) (s : State) : Out :=
  f32Op2 b d a c (fun daz _ => f32.minMax true daz) s
/-- FABS. -/
def execFabs (d a : VReg) (b : Bool) (s : State) : Out :=
  f32Op1 b d a (fun daz _ => f32.absV daz) s
/-- FNEG. -/
def execFneg (d a : VReg) (b : Bool) (s : State) : Out :=
  f32Op1 b d a (fun daz _ => f32.negV daz) s
/-- FCLASS. -/
def execFclass (d a : VReg) (b : Bool) (s : State) : Out :=
  classOp b d a f32.classMask s
/-- FFMA. -/
def execFfma (d a c : VReg) (b : Bool) (s : State) : Out :=
  f32Op3 b d a c (fun daz ftz x y z => f32.fma false false daz ftz x.toNat y.toNat z.toNat) s
/-- FFMS. -/
def execFfms (d a c : VReg) (b : Bool) (s : State) : Out :=
  f32Op3 b d a c (fun daz ftz x y z => f32.fma false true daz ftz x.toNat y.toNat z.toNat) s
/-- FNMA. -/
def execFnma (d a c : VReg) (b : Bool) (s : State) : Out :=
  f32Op3 b d a c (fun daz ftz x y z => f32.fma true true daz ftz x.toNat y.toNat z.toNat) s
/-- FNMS. -/
def execFnms (d a c : VReg) (b : Bool) (s : State) : Out :=
  f32Op3 b d a c (fun daz ftz x y z => f32.fma true false daz ftz x.toNat y.toNat z.toNat) s

/-! ## FARITH16, FARITHBF -/

/-- FADD.F16. -/
def execFaddF16 (d a c : VReg) (b : Bool) (s : State) : Out :=
  packed2 b d a c f16.add s
/-- FSUB.F16. -/
def execFsubF16 (d a c : VReg) (b : Bool) (s : State) : Out :=
  packed2 b d a c f16.sub s
/-- FMUL.F16. -/
def execFmulF16 (d a c : VReg) (b : Bool) (s : State) : Out :=
  packed2 b d a c f16.mul s
/-- FMIN.F16. -/
def execFminF16 (d a c : VReg) (b : Bool) (s : State) : Out :=
  packed2 b d a c (fun daz _ => f16.minMax false daz) s
/-- FMAX.F16. -/
def execFmaxF16 (d a c : VReg) (b : Bool) (s : State) : Out :=
  packed2 b d a c (fun daz _ => f16.minMax true daz) s
/-- FABS.F16. -/
def execFabsF16 (d a : VReg) (b : Bool) (s : State) : Out :=
  packed1 b d a (fun daz _ => f16.absV daz) s
/-- FNEG.F16. -/
def execFnegF16 (d a : VReg) (b : Bool) (s : State) : Out :=
  packed1 b d a (fun daz _ => f16.negV daz) s
/-- FCLASS.F16. -/
def execFclassF16 (d a : VReg) (b : Bool) (s : State) : Out :=
  classOp b d a (fun x => f16.classMask (x % 2 ^ 16) + f16.classMask (x / 2 ^ 16) * 2 ^ 16) s
/-- FADD.BF16. -/
def execFaddBf16 (d a c : VReg) (b : Bool) (s : State) : Out :=
  packed2 b d a c bf16.add s
/-- FSUB.BF16. -/
def execFsubBf16 (d a c : VReg) (b : Bool) (s : State) : Out :=
  packed2 b d a c bf16.sub s
/-- FMUL.BF16. -/
def execFmulBf16 (d a c : VReg) (b : Bool) (s : State) : Out :=
  packed2 b d a c bf16.mul s
/-- FMIN.BF16. -/
def execFminBf16 (d a c : VReg) (b : Bool) (s : State) : Out :=
  packed2 b d a c (fun daz _ => bf16.minMax false daz) s
/-- FMAX.BF16. -/
def execFmaxBf16 (d a c : VReg) (b : Bool) (s : State) : Out :=
  packed2 b d a c (fun daz _ => bf16.minMax true daz) s
/-- FABS.BF16. -/
def execFabsBf16 (d a : VReg) (b : Bool) (s : State) : Out :=
  packed1 b d a (fun daz _ => bf16.absV daz) s
/-- FNEG.BF16. -/
def execFnegBf16 (d a : VReg) (b : Bool) (s : State) : Out :=
  packed1 b d a (fun daz _ => bf16.negV daz) s
/-- FCLASS.BF16. -/
def execFclassBf16 (d a : VReg) (b : Bool) (s : State) : Out :=
  classOp b d a (fun x => bf16.classMask (x % 2 ^ 16) + bf16.classMask (x / 2 ^ 16) * 2 ^ 16) s

/-! ## FARITH64 -/

/-- FADD.F64. -/
def execFaddF64 (d a c : VReg) (b : Bool) (s : State) : Out :=
  f64Op2 b d a c f64.add s
/-- FSUB.F64. -/
def execFsubF64 (d a c : VReg) (b : Bool) (s : State) : Out :=
  f64Op2 b d a c f64.sub s
/-- FMUL.F64. -/
def execFmulF64 (d a c : VReg) (b : Bool) (s : State) : Out :=
  f64Op2 b d a c f64.mul s
/-- FMIN.F64. -/
def execFminF64 (d a c : VReg) (b : Bool) (s : State) : Out :=
  f64Op2 b d a c (fun daz _ => f64.minMax false daz) s
/-- FMAX.F64. -/
def execFmaxF64 (d a c : VReg) (b : Bool) (s : State) : Out :=
  f64Op2 b d a c (fun daz _ => f64.minMax true daz) s
/-- FABS.F64. -/
def execFabsF64 (d a : VReg) (b : Bool) (s : State) : Out :=
  f64Op1 b d a (fun daz _ => f64.absV daz) s
/-- FNEG.F64. -/
def execFnegF64 (d a : VReg) (b : Bool) (s : State) : Out :=
  f64Op1 b d a (fun daz _ => f64.negV daz) s
/-- FFMA.F64: Round(a × c + d), with d the pair D read before the write. -/
def execFfmaF64 (d a c : VReg) (b : Bool) (s : State) : Out :=
  issue { b := b, u := { regs := useDDAC d a c 2, fl := true }, cyc := (2, 4, 8) } (fun x s w => Eff.perLane x s w (fun _ l =>
    let r := f64.fma false false (wmDaz w.wmode) (wmFtz w.wmode) (l.vp w.alloc a).toNat (l.vp w.alloc c).toNat
      (l.vp w.alloc d).toNat
    flagged w.wmode l (l.setVP w.alloc d (BitVec.ofNat 64 r.1)) r.2)) s

/-! ## FCMP (R153) -/

/-- FCMP.EQ. -/
def execFcmpEq (d : PReg) (a c : VReg) (b : Bool) (s : State) : Out :=
  fcmpOp b d a c f32 1 .eq s
/-- FCMP.LT. -/
def execFcmpLt (d : PReg) (a c : VReg) (b : Bool) (s : State) : Out :=
  fcmpOp b d a c f32 1 .lt s
/-- FCMP.LE. -/
def execFcmpLe (d : PReg) (a c : VReg) (b : Bool) (s : State) : Out :=
  fcmpOp b d a c f32 1 .le s
/-- FCMP.UN. -/
def execFcmpUn (d : PReg) (a c : VReg) (b : Bool) (s : State) : Out :=
  fcmpOp b d a c f32 1 .un s
/-- FCMP.EQ.F64. -/
def execFcmpEqF64 (d : PReg) (a c : VReg) (b : Bool) (s : State) : Out :=
  fcmpOp b d a c f64 2 .eq s
/-- FCMP.LT.F64. -/
def execFcmpLtF64 (d : PReg) (a c : VReg) (b : Bool) (s : State) : Out :=
  fcmpOp b d a c f64 2 .lt s
/-- FCMP.LE.F64. -/
def execFcmpLeF64 (d : PReg) (a c : VReg) (b : Bool) (s : State) : Out :=
  fcmpOp b d a c f64 2 .le s
/-- FCMP.UN.F64. -/
def execFcmpUnF64 (d : PReg) (a c : VReg) (b : Bool) (s : State) : Out :=
  fcmpOp b d a c f64 2 .un s

/-! ## DOT (R161, R162) -/

/-- DOT4.I8. -/
def execDot4I8 (d a c : VReg) (b : Bool) (s : State) : Out :=
  dotOp b d a c 8 4 true s
/-- DOT4.N8. -/
def execDot4N8 (d a c : VReg) (b : Bool) (s : State) : Out :=
  dotOp b d a c 8 4 false s
/-- DOT8.I4. -/
def execDot8I4 (d a c : VReg) (b : Bool) (s : State) : Out :=
  dotOp b d a c 4 8 true s
/-- DOT8.N4. -/
def execDot8N4 (d a c : VReg) (b : Bool) (s : State) : Out :=
  dotOp b d a c 4 8 false s
/-- FDOT4E4M3. -/
def execFdot4E4m3 (d a c : VReg) (b : Bool) (s : State) : Out :=
  f32Op3 b d a c (fun _ _ x y z => fdot e4m3 8 4 x y z) s
/-- FDOT4E5M2. -/
def execFdot4E5m2 (d a c : VReg) (b : Bool) (s : State) : Out :=
  f32Op3 b d a c (fun _ _ x y z => fdot e5m2 8 4 x y z) s
/-- FDOT8E2M1. -/
def execFdot8E2m1 (d a c : VReg) (b : Bool) (s : State) : Out :=
  f32Op3 b d a c (fun _ _ x y z => fdot e2m1 4 8 x y z) s
/-- FDOT2BF16. -/
def execFdot2Bf16 (d a c : VReg) (b : Bool) (s : State) : Out :=
  f32Op3 b d a c (fun _ _ x y z => fdot bf16 16 2 x y z) s

/-! ## 16-bit forms (R63) -/

/-- FADD_16. -/
def execFadd16 (d c : LReg) (b : Bool) (s : State) : Out :=
  halfF2 b d c f32.add s
/-- FSUB_16. -/
def execFsub16 (d c : LReg) (b : Bool) (s : State) : Out :=
  halfF2 b d c f32.sub s
/-- FMUL_16. -/
def execFmul16 (d c : LReg) (b : Bool) (s : State) : Out :=
  halfF2 b d c f32.mul s
/-- FMAX_16. -/
def execFmax16 (d c : LReg) (b : Bool) (s : State) : Out :=
  halfF2 b d c (fun daz _ => f32.minMax true daz) s
/-- FMIN_16. -/
def execFmin16 (d c : LReg) (b : Bool) (s : State) : Out :=
  halfF2 b d c (fun daz _ => f32.minMax false daz) s

end Sys2Proof.Machine
end

