-- ==== Sys2Proof/Machine/Rng.lean ====
section
/-! DEFINITION. The ChaCha8 block (R165), RNG and RNGF (R165 to R167), and the words of stochastic rounding (R104). -/
namespace Sys2Proof.Machine

open Sys2Proof

/-! ## ChaCha with 8 rounds (R165) -/

/-- The quarter round of RFC 8439 on words a, b, c, d of the state. -/
def quarter (x : List Word) (a b c d : Nat) : List Word :=
  let a1 := x.getD a 0 + x.getD b 0
  let d1 := (x.getD d 0 ^^^ a1).rotateLeft 16
  let c1 := x.getD c 0 + d1
  let b1 := (x.getD b 0 ^^^ c1).rotateLeft 12
  let a2 := a1 + b1
  let d2 := (d1 ^^^ a2).rotateLeft 8
  let c2 := c1 + d2
  let b2 := (b1 ^^^ c2).rotateLeft 7
  (((x.set a a2).set b b2).set c c2).set d d2

/-- A double round: four column rounds, then four diagonal rounds. -/
def doubleRound (x : List Word) : List Word :=
  let x := quarter x 0 4 8 12
  let x := quarter x 1 5 9 13
  let x := quarter x 2 6 10 14
  let x := quarter x 3 7 11 15
  let x := quarter x 0 5 10 15
  let x := quarter x 1 6 11 12
  let x := quarter x 2 7 8 13
  quarter x 3 4 9 14

/-- `n` double rounds. -/
def doubleRounds : Nat → List Word → List Word
  | 0, x => x
  | n + 1, x => doubleRounds n (doubleRound x)

/-- The 16 output words of a block: 4 double rounds, then the word-wise addition of the input (R165). -/
def chacha8 (key : List Word) (counter stream : DWord) : List Word :=
  let x := [0x61707865, 0x3320646E, 0x79622D32, 0x6B206574] ++ (List.range 8).map (fun i => key.getD i 0)
    ++ pairWords counter ++ pairWords stream
  (doubleRounds 4 x).zipWith (· + ·) x

/-- RNG key of a grid (R165). -/
def State.rngKey (s : State) (gk : Nat) : List Word := (s.recOf gk).key

/-- The words that stochastic rounding draws in a lane for an instruction at `pc` whose source operand is `src` (R104). -/
def State.srBlock (s : State) (gk : Nat) (l : Lane) (pc : DWord) (src : List Word) : List Word :=
  let key := s.rngKey gk
  let diff : Int := (pc.toNat - (s.recOf gk).entry.toNat) / 2
  chacha8 (key.set 0 (~~~(key.getD 0 0))) (BitVec.ofInt 32 diff ++ src.foldl (· ^^^ ·) (0 : Word))
    (if l.sid = 0 then l.gtid else l.sid)

/-! ## RNG and RNGF (R165, R166) -/

/-- Writes to quad D what `f` makes of the block keyed by the grid, with stream A and counter C. -/
def rngShape (b : Bool) (d a c : VReg) (f : List Word → List Word) (s : State) : Out :=
  issue { b := b, cyc := (1, 1, 2)
          u := { regs := [⟨1, d, 4, false, true⟩, ⟨2, a, 2, true, false⟩, ⟨4, c, 2, true, false⟩], var := true } }
    (fun x s w => Eff.perLane x s w (fun _ l =>
      .ok (l.wr w.alloc d (f (chacha8 (s.rngKey w.gk) (l.vp w.alloc c) (l.vp w.alloc a)))))) s

/-- Four words of the block from word 4N. -/
def blockWords (n : Nat) (x : List Word) : List Word := (List.range 4).map (fun i => x.getD (4 * n + i) 0)

/-- The f32 value n × 2^-24 for n < 2^24 (R166). -/
def unitF32 (n : Nat) : Word :=
  if n = 0 then 0
  else
    let k := Nat.log2 n
    BitVec.ofNat 32 ((127 - 24 + k) * 2 ^ 23 + (n * 2 ^ (23 - k) - 2 ^ 23))

/-- RNG.Q0. -/
def execRngQ0 (d a c : VReg) (b : Bool) (s : State) : Out := rngShape b d a c (blockWords 0) s
/-- RNG.Q1. -/
def execRngQ1 (d a c : VReg) (b : Bool) (s : State) : Out := rngShape b d a c (blockWords 1) s
/-- RNG.Q2. -/
def execRngQ2 (d a c : VReg) (b : Bool) (s : State) : Out := rngShape b d a c (blockWords 2) s
/-- RNG.Q3. -/
def execRngQ3 (d a c : VReg) (b : Bool) (s : State) : Out := rngShape b d a c (blockWords 3) s
/-- RNGF. -/
def execRngf (d a c : VReg) (b : Bool) (s : State) : Out :=
  rngShape b d a c (fun x => (blockWords 0 x).map (fun w => unitF32 (w.toNat / 256))) s

end Sys2Proof.Machine
end

