-- ==== Sys2Proof/Machine/Convert.lean ====
section
/-! DEFINITION. CVT and FMISC: conversions, rounding to an integral value, scaling, packing (R154 to R160). -/
namespace Sys2Proof.Machine

open Sys2Proof

/-! ## Conversions of one element -/

/-- The mode in force: DYN takes DRM (R100, R155). -/
def modeOf (r : Rnd) (wmode : Word) (w : Word) : Mode :=
  match r with
  | .dyn => { md := match wmDrm wmode with | 1 => .rz | 2 => .rdn | 3 => .rup | 4 => .rna | _ => .rne }
  | m => { md := m, w := w.toNat % 2 ^ 24 }

/-- A datum converted to a format (R103, R155); `ftz` acts on f64, f32, f16 and bf16 results only. -/
def Fmt.convert (dst : Fmt) (md : Mode) (ftz : Bool) (x : FV) : Enc :=
  match x with
  | .nan sig => (dst.nanBits, if sig ∨ dst.top = .numbers then fNV else 0)
  | .inf neg => if dst.top = .ieee then (dst.signed neg dst.infBits, 0) else (dst.signed neg dst.maxBits, fNV)
  | .num d => dst.round md ftz d

/-- A datum converted to an integer format of `w` bits (R156). -/
def toInteger (w : Nat) (signed : Bool) (md : Mode) (x : FV) : Enc :=
  let lo : Int := if signed then -(2 ^ (w - 1) : Nat) else 0
  let hi : Int := if signed then (2 ^ (w - 1) : Nat) - 1 else (2 ^ w : Nat) - 1
  match x with
  | .nan _ => (0, fNV)
  | .inf neg => (trunc (if neg then lo else hi) w, fNV)
  | .num d =>
    -- a value at or above 2^64 is out of range, whatever its low bits
    if d.m ≠ 0 ∧ 64 ≤ d.log2 then (trunc (if d.neg then lo else hi) w, fNV)
    else
      let r := d.roundAt md 0
      let v : Int := if d.neg then -(r.1 : Int) else r.1
      if hi < v then (trunc hi w, fNV)
      else if v < lo then (trunc lo w, fNV)
      else (trunc v w, if r.2 then fNX else 0)

/-- An integer as a datum. -/
def intValue (n : Nat) (w : Nat) (signed : Bool) : FV :=
  .num (.ofInt (if signed then sx n w else ((n % 2 ^ w : Nat) : Int)) 0)

/-- `f32.e8m0` (R157). DEDUCED, log entry 33. -/
def fromE8m0 (ftz : Bool) (n : Nat) : Enc :=
  if n % 256 = 255 then (f32.nanBits, 0) else f32.round .rne ftz ⟨false, 1, (n % 256 : Nat) - 127⟩

/-- `e8m0.f32` of the input after DAZ (R157). -/
def toE8m0 (x : FV) : Enc :=
  match x with
  | .num d =>
    if d.m = 0 ∨ d.log2 < -127 then (0, fUF ||| fNX)
    else
      let k := min d.log2 127
      ((k + 127).toNat, if d.same ⟨d.neg, 1, k⟩ then 0 else fNX)
  | _ => (255, fNV)

/-! ## The selectors (R154) -/

/-- A floating-point or integer format of a conversion. -/
inductive CFmt where
  | fl (f : Fmt)
  | int (w : Nat) (signed : Bool)
deriving DecidableEq, Repr

/-- What a selector converts (R154). -/
inductive CvtKind where
  /-- One element. -/
  | one (dst src : CFmt)
  /-- `n` packed elements, from `sw` bits each to `dw` bits each. -/
  | packed (dst src : Fmt) (n dw sw : Nat)
  | fromE8m0
  | toE8m0
deriving DecidableEq, Repr

/-- The narrow formats in selector order. -/
def narrow (i : Nat) : Fmt :=
  match i with
  | 0 => e4m3
  | 1 => e5m2
  | 2 => e2m3
  | 3 => e3m2
  | _ => e2m1

/-- The table of conversion selectors (R154). -/
def cvtKind (sel : Nat) : Option CvtKind :=
  match sel with
  | 0x00 => some (.one (.fl f32) (.fl f64))
  | 0x01 => some (.one (.fl f64) (.fl f32))
  | 0x02 => some (.one (.fl f16) (.fl f32))
  | 0x03 => some (.one (.fl f32) (.fl f16))
  | 0x04 => some (.one (.fl bf16) (.fl f32))
  | 0x05 => some (.one (.fl f32) (.fl bf16))
  | 0x06 => some (.one (.fl f16) (.fl f64))
  | 0x07 => some (.one (.fl f64) (.fl f16))
  | 0x08 => some (.one (.fl f32) (.int 32 true))
  | 0x09 => some (.one (.fl f32) (.int 32 false))
  | 0x0A => some (.one (.fl f32) (.int 64 true))
  | 0x0B => some (.one (.fl f32) (.int 64 false))
  | 0x0C => some (.one (.fl f64) (.int 32 true))
  | 0x0D => some (.one (.fl f64) (.int 32 false))
  | 0x0E => some (.one (.fl f64) (.int 64 true))
  | 0x0F => some (.one (.fl f64) (.int 64 false))
  | 0x10 => some (.one (.int 32 true) (.fl f32))
  | 0x11 => some (.one (.int 32 false) (.fl f32))
  | 0x12 => some (.one (.int 64 true) (.fl f32))
  | 0x13 => some (.one (.int 64 false) (.fl f32))
  | 0x14 => some (.one (.int 32 true) (.fl f64))
  | 0x15 => some (.one (.int 32 false) (.fl f64))
  | 0x16 => some (.one (.int 64 true) (.fl f64))
  | 0x17 => some (.one (.int 64 false) (.fl f64))
  | 0x34 => some (.packed e2m1 f16 4 4 16)
  | 0x3C => some (.packed e2m1 bf16 4 4 16)
  | 0x44 => some (.packed f16 e2m1 8 16 4)
  | 0x4C => some (.packed bf16 e2m1 8 16 4)
  | 0x50 => some .fromE8m0
  | 0x51 => some .toE8m0
  | n =>
    if 0x20 ≤ n ∧ n ≤ 0x24 then some (.one (.fl (narrow (n - 0x20))) (.fl f32))
    else if 0x28 ≤ n ∧ n ≤ 0x2C then some (.one (.fl f32) (.fl (narrow (n - 0x28))))
    else if 0x30 ≤ n ∧ n ≤ 0x33 then some (.packed (narrow (n - 0x30)) f16 4 8 16)
    else if 0x38 ≤ n ∧ n ≤ 0x3B then some (.packed (narrow (n - 0x38)) bf16 4 8 16)
    else if 0x40 ≤ n ∧ n ≤ 0x43 then some (.packed f16 (narrow (n - 0x40)) 4 16 8)
    else if 0x48 ≤ n ∧ n ≤ 0x4B then some (.packed bf16 (narrow (n - 0x48)) 4 16 8)
    else none

/-- One element converted; `md k` is the mode for element k. -/
def cvtOne (dst src : CFmt) (md : Mode) (daz ftz : Bool) (n : Nat) : Enc :=
  let x := match src with
    | .fl f => f.read daz n
    | .int w sg => intValue n w sg
  match dst with
  | .fl f => f.convert md ftz x
  | .int w sg => toInteger w sg md x

/-- The result of a conversion of the source value `n`, with the flags; `md k` is the mode for element k (R158). -/
def cvtValue (k : CvtKind) (md : Nat → Mode) (daz ftz : Bool) (n : Nat) : Enc :=
  match k with
  | .one dst src => cvtOne dst src (md 0) daz ftz n
  | .packed dst src c dw sw =>
    (List.range c).foldl (fun acc i =>
      let r := cvtOne (.fl dst) (.fl src) (md i) daz ftz (bits n (sw * i + sw - 1) (sw * i))
      (acc.1 + r.1 * 2 ^ (dw * i), acc.2 ||| r.2)) (0, 0)
  | .fromE8m0 => fromE8m0 ftz n
  | .toE8m0 => toE8m0 (f32.read daz n)

/-- The words that SR draws, or none needed. -/
def State.modes (s : State) (gk : Nat) (l : Lane) (pc : DWord) (r : Rnd) (wmode : Word) (src : List Word) (k : Nat) : Mode :=
  match r with
  | .sr => modeOf .sr wmode ((s.srBlock gk l pc src).getD k 0)
  | m => modeOf m wmode 0

/-- A conversion with an f64 operand (R302). -/
def cvtWide (sel : Nat) : Bool :=
  [0x00, 0x01, 0x06, 0x07, 0x0C, 0x0D, 0x0E, 0x0F, 0x14, 0x15, 0x16, 0x17].contains sel

/-- CVT (R154 to R158). An unlisted selector never reaches here: the decoder refuses it (R168). -/
def execCvt (rnd : Rnd) (d a : VReg) (cv : BitVec 7) (b : Bool) (s : State) : Out :=
  let ws := (cvtWidths cv).getD (1, 1)
  issue { b := b, cyc := if cvtWide cv.toNat then (2, 4, 8) else (1, 1, 2)
          u := { regs := [⟨1, d, ws.1, false, true⟩, ⟨2, a, ws.2, true, false⟩], fl := true } } (fun x s w =>
    match cvtKind cv.toNat with
    | none => Eff.trapAll x s w cILLEGAL 0
    | some k =>
      Eff.perLane x s w (fun _ l =>
        let src := (List.range ws.2).map (fun i => l.rd w.alloc a ws.2 i)
        let n := src.foldr (fun v t => v.toNat + t * 2 ^ 32) 0
        let r := cvtValue k (s.modes w.gk l x.pc rnd w.wmode src) (wmDaz w.wmode) (wmFtz w.wmode) n
        flagged w.wmode l
          (l.wr w.alloc d ((List.range ws.1).map (fun i => BitVec.ofNat 32 (r.1 / 2 ^ (32 * i))))) r.2)) s

/-! ## FMISC (R159, R160) -/

/-- An f32 value rounded to an integral f32 value; no NX (R160). -/
def frndValue (md : Mode) (daz : Bool) (a : Nat) : Enc :=
  match f32.read daz a with
  | .nan sig => (f32.nanBits, if sig then fNV else 0)
  | .inf neg => (f32.signed neg f32.infBits, 0)
  | .num d => if d.m = 0 ∨ 0 ≤ d.e then (f32.keep daz a, 0) else ((f32.round .rne false ⟨d.neg, (d.roundAt md 0).1, 0⟩).1, 0)

/-- Round(a × 2^k); beyond 2^±1000 the exponent no longer matters (R159). -/
def fsclValue (daz ftz : Bool) (a : Nat) (k : Int) : Enc :=
  match f32.read daz a with
  | .nan sig => (f32.nanBits, if sig then fNV else 0)
  | .inf neg => (f32.signed neg f32.infBits, 0)
  | .num d => if d.m = 0 then (f32.keep daz a, 0) else f32.round .rne ftz { d with e := d.e + max (-1000) (min 1000 k) }

/-- FRND. -/
def execFrnd (d a : VReg) (rnd : Rnd) (b : Bool) (s : State) : Out :=
  issue { b := b, u := { regs := useDA d a, fl := true } } (fun x s w => Eff.perLane x s w (fun _ l =>
    let v := l.v w.alloc a
    let r := frndValue (s.modes w.gk l x.pc rnd w.wmode [v] 0) (wmDaz w.wmode) v.toNat
    flagged w.wmode l (l.setV w.alloc d (BitVec.ofNat 32 r.1)) r.2)) s

/-- FSCL. -/
def execFscl (d a c : VReg) (b : Bool) (s : State) : Out :=
  issue { b := b, u := { regs := useDAC d a c, fl := true } } (fun x s w => Eff.perLane x s w (fun _ l =>
    let r := fsclValue (wmDaz w.wmode) (wmFtz w.wmode) (l.v w.alloc a).toNat (l.v w.alloc c).toInt
    flagged w.wmode l (l.setV w.alloc d (BitVec.ofNat 32 r.1)) r.2)) s

/-- Two f32 values packed as 16-bit values (R159). -/
def fpkValue (f : Fmt) (daz ftz : Bool) (x y : Nat) : Enc :=
  pack2 (f.convert .rne ftz (f32.read daz x)) (f.convert .rne ftz (f32.read daz y))

/-- FPK16. -/
def execFpk16 (d a c : VReg) (b : Bool) (s : State) : Out := f32Op2 b d a c (fpkValue f16) s
/-- FPKBF. -/
def execFpkbf (d a c : VReg) (b : Bool) (s : State) : Out := f32Op2 b d a c (fpkValue bf16) s

/-- Two 16-bit values unpacked to a pair of f32 (R159). -/
def fupkOp (b : Bool) (d a : VReg) (f : Fmt) (s : State) : Out :=
  issue { b := b, u := { regs := [⟨1, d, 2, false, true⟩, ⟨2, a, 1, true, false⟩], fl := true } } (fun x s w =>
    Eff.perLane x s w (fun _ l =>
      let v := (l.v w.alloc a).toNat
      let el (n : Nat) : Enc := f32.convert .rne (wmFtz w.wmode) (f.read (wmDaz w.wmode) n)
      let lo := el (v % 2 ^ 16)
      let hi := el (v / 2 ^ 16)
      flagged w.wmode l (l.wr w.alloc d [BitVec.ofNat 32 lo.1, BitVec.ofNat 32 hi.1]) (lo.2 ||| hi.2))) s

/-- FUPK16. -/
def execFupk16 (d a : VReg) (b : Bool) (s : State) : Out := fupkOp b d a f16 s
/-- FUPKBF. -/
def execFupkbf (d a : VReg) (b : Bool) (s : State) : Out := fupkOp b d a bf16 s

end Sys2Proof.Machine
end

