-- ==== Sys2Proof/Machine/Barrier.lean ====
section
/-! DEFINITION. When a team barrier, a warp's BARM and a mode instance complete, and what completion does (R111, R212 to R216,
R245 to R248). An exit can complete each of them, so they stand before the instructions. -/
namespace Sys2Proof.Machine

open Sys2Proof

/-! ## The BARR tree (R111, R214) -/

/-- Op of a BARR function, with its flags (R214). -/
def barrOp (fn : Nat) (a b : DWord) : DWord × FFlags :=
  let f (f : Fmt) (r : Enc) : DWord × FFlags := (BitVec.ofNat 64 (r.1 % 2 ^ f.width), r.2)
  match fn with
  | 0 => (a + b, 0)
  | 1 => f f32 (f32.add false false a.toNat b.toNat)
  | 2 => f f64 (f64.add false false a.toNat b.toNat)
  | 3 => f f32 (f32.minMax false false a.toNat b.toNat)
  | 4 => f f32 (f32.minMax true false a.toNat b.toNat)
  | 5 => (minI a b, 0)
  | 6 => (maxI a b, 0)
  | _ => (a ||| b, 0)

/-- One level of the tree: neighbours combine; an absent leaf leaves the other (R111). -/
def barrLevel (fn : Nat) : List (Option DWord) → List (Option DWord) × FFlags
  | a :: b :: t =>
    let r := barrLevel fn t
    match a, b with
    | none, y => (y :: r.1, r.2)
    | some x, none => (some x :: r.1, r.2)
    | some x, some y => let z := barrOp fn x y; (some z.1 :: r.1, z.2 ||| r.2)
  | l => (l, 0)

/-- The root of a tree with 2^n leaves, and the flags raised anywhere in it (R111). -/
def barrTree (fn : Nat) : Nat → List (Option DWord) → FFlags → Option DWord × FFlags
  | 0, l, f => (l.headD none, f)
  | n + 1, l, f => let r := barrLevel fn l; barrTree fn n r.1 (f ||| r.2)

/-- Levels of the tree for T threads: log2 of the smallest power of two not less than T. -/
def barrDepth (t : Nat) : Nat := if t ≤ 1 then 0 else Nat.log2 (t - 1) + 1

/-- Root and flags of the arrivals of an instance of a team of `t` threads (R111). -/
def barrRoot (arr : List Arrival) (fn t : Nat) : Option DWord × FFlags :=
  let n := barrDepth t
  barrTree fn n ((List.range (2 ^ n)).map (fun j =>
    (arr.find? (fun a => a.fn.isSome && a.tid == j)).map (fun a => a.val))) 0

/-! ## Team barriers (R212 to R215) -/

/-- BARR functions that take pairs (R214). -/
def barrPair (fn : Nat) : Bool := fn == 0 || fn == 2 || fn == 5 || fn == 6

/-- Every original thread of the team that has not exited has arrived (R212). -/
def State.barDue (s : State) (t : Team) : Bool :=
  !t.arrivals.isEmpty && (s.teamWarps t.gk t.idx).all (fun w => (List.range w.width).all (fun L =>
    decide ((w.lane L).life ≠ .live) || t.arrivals.any (fun a => a.w == w.uid && a.lane == L)))

/-- The trap of a lane that arrived by BARR (R215). Where a handler holds the lane by then it is delivered after the handler, and is no double
trap (DESIGN CHOICE, log entry 71). -/
def Arrival.trap (a : Arrival) (cause detail : Nat) : HeldTrap :=
  { cause := cause, detail := detail, addr := 0, mask := laneBit a.lane, pc := a.pc, pri := a.pri, insn := a.insn, len := 4,
    double := false }

/-- Adds a trap to the held ones, joining it with those of the same cause and instruction (R264). -/
def joinTrap (ts : List HeldTrap) (t : HeldTrap) : List HeldTrap :=
  if ts.any (fun x => x.cause == t.cause && x.pc == t.pc && x.double == t.double) then
    ts.map (fun x => if x.cause = t.cause ∧ x.pc = t.pc ∧ x.double = t.double then
      { x with mask := x.mask ||| t.mask, detail := x.detail ||| t.detail } else x)
  else ts ++ [t]

/-- Lane L of a warp receives the root of a BARR: flags, FPX where a raised flag is enabled, else D (R215). -/
def Warp.barrResult (w : Warp) (a : Arrival) (v : DWord) (f : FFlags) : Warp :=
  let en := f &&& wmTen w.wmode
  if en = 0 then
    w.lasting id (fun ls => ls.modify a.lane (fun l =>
      let l := l.orFlags f
      if barrPair (a.fn.getD 0) then l.setVP w.alloc a.dst v else l.setV w.alloc a.dst (v.extractLsb' 0 32))) id
  else
    (w.lasting (fun fr => dropLanes fr (laneBit a.lane)) (fun ls => ls.modify a.lane (fun l => l.orFlags f))
      (fun ts => joinTrap ts (a.trap cFPX en.toNat)))

/-- An instance completes: roots are delivered, mixed functions trap, and every arrived entry unparks (R212, R215). -/
def State.barComplete (s : State) (t : Team) : State :=
  let fns := dedup (t.arrivals.filterMap (fun a => a.fn))
  let fn := fns.headD 0
  let root := barrRoot t.arrivals fn (s.recOf t.gk).threads
  let s1 := s.modTeam t.gk t.idx (fun x => { x with arrivals := [] })
  let s2 := t.arrivals.foldl (fun x a =>
    if a.fn.isNone then x
    else if 1 < fns.length then
      x.modWarp a.w (fun w => w.lasting (fun fr => dropLanes fr (laneBit a.lane)) id
        (fun ts => joinTrap ts (a.trap cSYNCMASK 0)))
    else x.modWarp a.w (fun w => w.barrResult a (root.1.getD 0) root.2)) s1
  (dedup (t.arrivals.map (fun a => a.w))).foldl (fun x u =>
    x.modWarp u (fun w => w.unparkAll (fun e => e.park == .bar))) s2

/-! ## Mode instances (R245 to R248) -/

/-- Macros of a team: core and index. -/
def State.macros (s : State) (t : Team) : List (Nat × Nat × CimUnit) :=
  t.cores.flatMap (fun k => ((s.core t.die k).unitsOf t.gk t.idx).map (fun x => (k, x.1, x.2)))

/-- Some macro of the team has the mode. -/
def State.anyMacro (s : State) (t : Team) (m : Resid) : Bool := (s.macros t).any (fun x => x.2.2.mode == m)

/-- Copies that have issued and not completed and write array memory for a team (R246). DEDUCED, log entry 37. -/
def State.arrayCopies (s : State) (t : Team) : List Nat :=
  ((s.cores.flatMap (fun c => c.copies)).filter (fun c => c.gk == t.gk && c.team == t.idx && (!c.pending || c.issued) && !c.refused && (c.fn == .g2a || c.fn == .g2ax))).map
    (fun c => c.uid)

/-- Unparks the entries of a team that arrived at its mode instance. -/
def State.unparkMode (s : State) (t : Team) : State :=
  ((s.teamWarps t.gk t.idx).map (fun w => w.uid)).foldl (fun a u =>
    a.modWarp u (fun w => w.unparkAll (fun e => e.park == .mode))) (s.modTeam t.gk t.idx (fun x => { x with mode := .idle }))

/-- Every arriving lane of a mode instance traps, and the instance ends (R245, R248). -/
def State.trapMode (s : State) (t : Team) (arr : List (Nat × ModeFn × Mask × DWord × BitVec 3 × Word)) (cause : Nat) : State :=
  arr.foldl (fun a x =>
    a.modWarp x.1 (fun w => w.trapParked
      { cause := cause, detail := 0, addr := 0, mask := x.2.2.1, pc := x.2.2.2.1, pri := x.2.2.2.2.1, insn := x.2.2.2.2.2,
        len := 4, double := false })) (s.modTeam t.gk t.idx (fun y => { y with mode := .idle }))

/-- Every original warp that has not ended has arrived (R245). -/
def State.modeDue (s : State) (t : Team) (arr : List (Nat × ModeFn × Mask × DWord × BitVec 3 × Word)) : Bool :=
  !arr.isEmpty && (s.teamWarps t.gk t.idx).all (fun w =>
    w.lanes.all (fun l => decide (l.life ≠ .live)) || arr.any (fun x => x.1 == w.uid))

/-- A mode instance whose warps have all arrived begins its work, or traps (R245 to R248). -/
def State.modeComplete (s : State) (t : Team) (arr : List (Nat × ModeFn × Mask × DWord × BitVec 3 × Word)) : State :=
  match arr with
  | [] => s
  | x :: rest =>
    if rest.any (fun y => y.2.1 != x.2.1) then s.trapMode t arr cSYNCMASK
    else
      match x.2.1 with
      | .c =>
        if s.anyMacro t .storage then s.modTeam t.gk t.idx (fun y => { y with mode := .cWait (s.arrayCopies t) })
        else s.unparkMode t
      | .s => if s.anyMacro t .compute then s.modTeam t.gk t.idx (fun y => { y with mode := .sWait }) else s.unparkMode t
      | .cal =>
        if s.anyMacro t .compute then s.trapMode t arr cARRMODE
        else s.modTeam t.gk t.idx (fun y => { y with mode := .cal })

/-! ## After an arrival or an exit -/

/-- Completes the barrier and the mode instance of a team if they are due. -/
def State.checkTeam (s : State) (gk idx : Nat) : State :=
  match s.team? gk idx with
  | none => s
  | some t =>
    if t.st ≠ .running then s
    else
      let s1 := if s.barDue t then s.barComplete t else s
      match t.mode with
      | .gathering arr => if s1.modeDue t arr then s1.modeComplete t arr else s1
      | _ => s1

/-- Checks the issuing warp's own BARM and the barriers of its team; `w` is the warp as the instruction leaves it. -/
def State.checkAfter (s : State) (w : Warp) : State × Warp :=
  let w1 := w.checkBarm
  if w1.gathered then (s, w1)
  else
    let s1 := { s with cur := some w1 }.checkTeam w1.gk (w1.lane 0).team.toNat
    (s1, s1.cur.getD w1)

end Sys2Proof.Machine
end

