-- ==== Sys2Proof/Machine/MemAcc.lean ====
section
/-! DEFINITION. Loads, stores, posted stores, array, private and constant accesses, prefetches (R191 to R202, R208 to R210),
and the part transactions take in them (R223, R227). -/
namespace Sys2Proof.Machine

open Sys2Proof

/-! ## Reaching global memory (R192) -/

/-- What R192 makes of a lane's access before its data is looked at. -/
inductive Reach where
  | trap (t : LTrap)
  | page (p : PageHit)
  /-- A device page while the warp is speculative or an earlier access of it has not performed (R342). -/
  | wait
  /-- The walk of the tables waits (R394). -/
  | held
  | ok (pa : Nat) (io : Bool)
deriving DecidableEq, Repr

/-- Cases 2 to 5 of R192 for an access of `n` bytes at a global address, and the translation's trace in the TLBs. A fault in a
transaction is not sent (R222). DESIGN CHOICE, log entry 21. -/
def State.reach (s : State) (w : Warp) (L asid ea n : Nat) (acc : Access) : Reach × State :=
  let addr : DWord := BitVec.ofNat 64 ea
  if ea % n ≠ 0 then (.trap ⟨cMISALIGN, 0, addr⟩, s)
  else if bits ea 63 55 ≠ 0 then (.trap ⟨cPROT, 1, addr⟩, s)
  else
    match s.translate w.die w.core asid ea with
    | (.fault m g, s1) =>
      let s2 := if (w.lane L).txActive then s1
        else s1.noteFault (mkFault asid ea acc 0 w.die w.core m g) (.warp w.uid)
      (.page ⟨bits ea 54 16, asid, addr, false, g⟩, s2)
    | (.held, s1) => (.held, s1)
    | (.backing, s1) => (.trap ⟨cPFAIL, 1, addr⟩, s1)
    | (.ok pa e, s1) =>
      match e.refuses acc with
      | some d => (.trap ⟨cPROT, d, addr⟩, s1)
      | none =>
        if e.io && (w.lane L).txActive then (.trap ⟨cPROT, 5, addr⟩, s1)
        else if e.io && (w.spec || !w.settled) then (.wait, s1)
        else (.ok pa e.io, s1)

/-- A lane's access as R192 decides it: it traps, parks or waits, or goes on as `k` says with its physical address and whether its page
is marked IO. `u` is what the lanes of the instruction have gathered. -/
def Eff.reaching {α : Type} (f : Eff) (L ea n : Nat) (acc : Access) (u : α) (k : Eff → Nat → Bool → Eff × α) : Eff × α :=
  let asid := f.s.asidOf f.w.gk
  match f.s.reach f.w L asid ea n acc with
  | (.trap t, s1) => ({ f with s := s1 }.trap L t, u)
  | (.page p, s1) => ({ f with s := s1 }.page L p, u)
  | (.wait, _) => (f.hold id (some 10), u)
  | (.held, _) => (f.hold (fun x => (x.translate f.w.die f.w.core asid ea).2), u)
  | (.ok pa io, s1) => k { f with s := s1 } pa io

/-- What a lane does for every lane that executes, ascending, until the instruction waits. -/
def Eff.lanes {α : Type} (f : Eff) (x : Ctx) (u : α) (k : Eff → α → Nat → Eff × α) : Eff × α :=
  x.lanes.foldl (fun fu L => if fu.1.stall then fu else k fu.1 fu.2 L) (f, u)

/-- The access of lane L waits at the home; where a serial attempt of the same warp holds the line the lane alone waits, parked
(R227, R410; DEDUCED, log entry 62). -/
def Eff.atHome (f : Eff) (L pa n : Nat) (write : Bool) : Eff :=
  if f.s.siblingLock f.w.uid L (pa / 128) then { f with locked := f.locked ||| laneBit L }
  else f.queue (fun x => x.awaitHome f.w.uid L pa n write)

/-! ## Watched lines (R337, R346) -/

/-- Lines in the watch table of the issuing warp's core (R337, R346). -/
def State.watched (s : State) (w : Warp) : List Nat :=
  let of (x : Warp) : List Nat := (match x.window with | some v => v.watch.map (·.line) | none => [])
    ++ x.lanes.flatMap (fun l => if l.txActive then l.tx.rlines else [])
  (s.warps.filter (fun x => x.die == w.die && x.core == w.core)).foldl (fun acc x => (of x).foldl setPut acc)
    ((of w).foldl setPut [])

/-- Enters a line read by a load of lane L, through pages of its address space, in the window (R337). -/
def Warp.watch (w : Warp) (L line : Nat) (pages : List Nat) : Warp :=
  { w with window := w.window.map (fun v =>
      let o := v.watch.find? (fun x => x.line == line)
      { v with watch := v.watch.filter (fun x => x.line != line) ++
          [⟨line, v.seq, (o.map (·.lanes)).getD 0 ||| laneBit L, pages.foldl setPut ((o.map (·.pages)).getD [])⟩] }) }

/-- The page of an address (R391). -/
def pageOf (ea : DWord) : Nat := bits ea.toNat 54 16

/-- The line can be watched: it is already, or the table of 512 lines has room, or the warp is not speculative (R338). -/
def State.canWatch (s : State) (w : Warp) (line : Nat) : Bool :=
  w.window.isNone || (let t := s.watched w; t.contains line || decide (t.length < 512))

/-! ## Transactions (R223, R227) -/

/-- Lines in the read sets, or in the write sets, of the ACTIVE lanes. -/
def Warp.setLines (w : Warp) (writes : Bool) : List Nat :=
  w.lanes.foldl (fun acc l => if l.txActive then (if writes then l.tx.wlines else l.tx.rlines).foldl setPut acc else acc) []

/-- A lane adds a line to a set: the cause of its abort where a limit is exceeded (R223, R227, R346). `u` is the union so
far. -/
def Warp.txLimit (s : State) (w : Warp) (L line : Nat) (writes : Bool) (u : List Nat) : Option Nat :=
  let t := (w.lane L).tx
  let cap := if writes then cWriteCap else cReadCap
  let mine := dedup (t.rlines ++ t.wlines)
  if t.serial && !mine.contains line && decide (4 ≤ mine.length) then some cap
  else if u.contains line then none
  else if (if writes then 16 else 32) ≤ u.length then some cap
  else if !writes && (let x := s.watched w; !x.contains line && decide (512 ≤ x.length)) then some cap
  else none

/-- Posted stores to a line. -/
def postedIn (line : Nat) (p : Posted) : Bool := p.pa / 128 == line

/-- A serial attempt cannot take a line yet: a host holds a half, an earlier access of its warp has to perform there, or posted stores cannot
reach their package points (R227). -/
def State.takeShut (s : State) (w : Warp) (L line : Nat) : Bool :=
  (w.lane L).tx.serial && (s.line line).lock.isNone
    && (!(s.line line).hostFree || w.sent.any (fun x => x.space == .global && x.addr / 128 == line) || w.loads.any (fun x => x.addr / 128 == line)
      || !s.canForce (postedIn line))

/-- A serial attempt takes a line that it touches, so that no later store of another thread falls before its end (R227 step 4). -/
def State.txTake (s : State) (w : Warp) (L line : Nat) : State :=
  if (w.lane L).tx.serial ∧ (s.line line).lock.isNone then
    (s.publish (postedIn line)).modLine line (fun r => { r with lock := some (w.uid, L) })
  else s

/-- Aborts lane L inside an instruction: it leaves the entry (R224). -/
def Eff.txAbort (f : Eff) (L cause : Nat) : Eff :=
  let x := abortLanes f.s f.w [(L, cause)]
  { f with s := x.1, w := x.2, gone := f.gone ||| laneBit L }

/-! ## Loads -/

/-- All 8 ways of the line's L1 set are watched, by the issuing warp as the effect leaves it and by the others (R385). -/
def Eff.l1Shut (f : Eff) (line : Nat) : Bool := { f.s with cur := some f.w }.l1Shut f.w.die f.w.core line

/-- Where a load of `n` bytes puts its value in a lane; none for a destination that discards it (R17). -/
def loadDst (alloc : Nat) (d : VReg) (n : Nat) (signed : Bool) (l : Lane) : Option LoadDst :=
  match resolve alloc l d (regsOf n) with
  | some (some k) => some (.regs k signed)
  | _ => none

/-- The lane with a loaded value. -/
def putLoad (d : Option LoadDst) (n v : Nat) (l : Lane) : Lane :=
  match d with
  | none => l
  | some x => x.put n v l

/-- An increment of the lane's join counter that has not performed may change the bytes (R189 item 2). -/
def Warp.growing (w : Warp) (L pa n : Nat) : Bool :=
  (w.sent ++ (match w.window with | some v => v.buf | none => [])).any (fun x =>
    x.lane == L && x.spawn.any (fun r => r.1.join.isSome) && overlaps x.addr 8 pa n)

/-- A load of a lane whose access passes R192 up to case 5: poison, then the value (R208, R281). `u` is the union of read-set
lines at the start of the instruction with those added since. A load that is `late`, and takes nothing from the lane's own stores, binds its
value when its data returns (R331). -/
def Eff.loadAt (f : Eff) (L pa n : Nat) (io late : Bool) (ea : DWord) (dst : Option LoadDst) (u : List Nat) : Eff × List Nat :=
  let line := pa / 128
  let l := f.w.lane L
  let d := f.w.die
  if f.w.growing L pa n then (f.hold id (if f.w.spec then some 10 else none), u)
  else if io then
    if f.s.loadPoison f.w L pa n then (f.machineCheck L 0 ea pa n, u)
    else ({ f with w := f.w.setLane L (putLoad dst n (f.s.loadVal f.w L pa n) l) }, u)
  else if f.s.loadBusy f.w.uid L d pa n then (f.atHome L pa n false, u)
  else if l.txActive then
    match f.w.txLimit f.s L line false u with
    | some c => (f.txAbort L c, u)
    | none =>
      if f.l1Shut line then (f.txAbort L cReadCap, u)
      else if f.s.takeShut f.w L line then (f.hold (fun x => (x.urgePosted (postedIn line)).urge pa n true), u)
      else
        let s1 := ((f.s.forced line (.thread f.w.uid L)).touchLine d f.w.core line).txTake f.w L line
        if s1.loadPoison f.w L pa n then ({ f with s := s1 }.machineCheck L 0 ea pa n, u)
        else
          let v := s1.loadVal f.w L pa n
          let rset := (List.range n).foldl (fun r i =>
            if l.tx.wset.any (fun c => c.1 == pa + i) || r.any (fun c => c.1 == pa + i) then r
            else r ++ [(pa + i, BitVec.ofNat 8 (v / 256 ^ i))]) l.tx.rset
          let l1 := putLoad dst n v { l with tx := { l.tx with rset := rset, rlines := setPut l.tx.rlines line, pages := setPut l.tx.pages (pageOf ea) } }
          ({ f with s := s1, w := f.w.setLane L l1 }, setPut u line)
  else if !f.s.canWatch f.w line ∨ f.l1Shut line then (f.hold id (some 9), u)
  else
    let w1 := f.w.watch L line [pageOf ea]
    match (if late && !(List.range n).any (fun i => (w1.ownByte L .global (pa + i)).isSome) then dst else none) with
    | some t =>
      if f.s.loadPoison w1 L pa n then ({ f with w := w1 }.machineCheck L 0 ea pa n, u)
      else
        let r : LoadRec := { lane := L, addr := pa, n := n, dst := t, spec := w1.spec, seq := (w1.window.map (·.seq)).getD 0 }
        ({ f with w := { w1 with loads := w1.loads ++ [r] } }, u)
    | none =>
      let s1 := (f.s.forced line (.thread f.w.uid L)).touchLine d f.w.core line
      if s1.loadPoison w1 L pa n then ({ f with s := s1, w := w1 }.machineCheck L 0 ea pa n, u)
      else ({ f with s := s1, w := w1.setLane L (putLoad dst n (s1.loadVal w1 L pa n) l) }, u)

/-- A load of every active lane, in ascending order: `place` gives a lane's address or its fate before translation, `dst` where its value
goes. The model says whether its data returns later (R331; DESIGN CHOICE, log entry 4). -/
def loadLanes (x : Ctx) (s : State) (w : Warp) (n : Nat) (place : Nat → Lane → LTrap ⊕ Nat) (dst : Lane → Option LoadDst) : Eff :=
  ((Eff.idle { s with defer := s.defer.drop 1 } w).lanes x (w.setLines false) (fun f u L =>
    match place L (f.w.lane L) with
    | .inl t => (f.trap L t, u)
    | .inr ea => f.reaching L ea n .read u (fun g pa io =>
        g.loadAt L pa n io (s.defer.headD false) (BitVec.ofNat 64 ea) (dst (g.w.lane L)) u))).1

/-- The effective address of LDG, STG, STGP and PFG (R191). -/
def globalEa (w : Warp) (l : Lane) (a : VReg) (off : BitVec 7) (size : Nat) : Nat :=
  (l.vp w.alloc a + off.signExtend 64 * BitVec.ofNat 64 size).toNat

/-- LDG of `n` bytes (R194). -/
def ldgOp (b : Bool) (d a : VReg) (off : BitVec 7) (n : Nat) (signed : Bool) (s : State) : Out :=
  issue { b := b, load := true, plain := true
          u := { regs := [⟨1, d, regsOf n, false, true⟩, ⟨2, a, 2, true, false⟩], var := true } } (fun x s w =>
    loadLanes x s w n (fun _ l => .inr (globalEa w l a off n)) (loadDst w.alloc d n signed)) s

/-! ## Stores -/

/-- A store of a lane whose access passes R192 up to case 5 (R194 to R197, R208, R210, R223). -/
def Eff.storeAt (f : Eff) (L pa : Nat) (io posted : Bool) (ea : DWord) (bs : List Byte) (u : List Nat) : Eff × List Nat :=
  let line := pa / 128
  let n := bs.length
  let l := f.w.lane L
  let st (seq : Nat) : StoreRec := { lane := L, space := .global, addr := pa, bytes := bs, posted := posted, seq := seq, time := f.s.ticks }
  if f.s.siblingLock f.w.uid L line then (f.atHome L pa n true, u)
  else if f.s.storePoison f.w L pa n then (f.machineCheck L 2 ea pa n, u)
  else if io then
    ({ f with s := { f.s with mem := Memory.writes f.s.mem pa bs, poison := clearPoison f.s.poison pa n } }, u)
  else if l.txActive then
    if f.s.lineHeld f.w.uid L line then (f.atHome L pa n true, u)
    else
      match f.w.txLimit f.s L line true u with
      | some c => (f.txAbort L c, u)
      | none =>
        if f.s.takeShut f.w L line then (f.hold (fun x => (x.urgePosted (postedIn line)).urge pa n true), u)
        else
          let cells : List Host.Cell := bs.zipIdx.map (fun bi => (pa + bi.2, bi.1))
          let l1 := { l with tx := { l.tx with wset := l.tx.wset ++ cells, wlines := setPut l.tx.wlines line, pages := setPut l.tx.pages (pageOf ea) } }
          ({ f with s := f.s.txTake f.w L line, w := f.w.setLane L l1 }, setPut u line)
  else
    match f.w.window with
    | some v => ({ f with w := { f.w with window := some { v with buf := v.buf ++ [st v.seq] } } }, u)
    | none =>
      if posted then
        let r := f.s.sendPosted f.w (st 0)
        ({ f with s := r.1, w := r.2 }, u)
      else ({ f with stores := f.stores ++ [st 0] }, u)

/-- The plain stores that the lanes of an instruction have made leave the core (R331, R409). -/
def Eff.sendAll (f : Eff) : Eff :=
  if f.stall then f
  else
    let r := f.s.sendStores f.w f.stores
    { f with s := r.1, w := r.2, stores := []
             wrote := f.wrote ++ (f.stores.filter (fun x => x.space == .global && !r.2.sent.contains x)).map (fun x => (x.lane, x.addr / 128)) }

/-- A store of every active lane, in ascending order (R197). -/
def storeLanes (x : Ctx) (s : State) (w : Warp) (n : Nat) (posted : Bool) (ea : Lane → Nat) (data : Lane → List Byte) : Eff :=
  Eff.sendAll ((Eff.idle s w).lanes x (w.setLines true) (fun f u L =>
    let l := f.w.lane L
    f.reaching L (ea l) n .write u (fun g pa io => g.storeAt L pa io posted (BitVec.ofNat 64 (ea l)) (data l) u))).1

/-- The low `n` bytes of a register, pair or quad. -/
def Lane.dataBytes (l : Lane) (alloc : Nat) (d : VReg) (n : Nat) : List Byte :=
  toBytes n ((List.range (regsOf n)).foldr (fun i t => (l.rd alloc d (regsOf n) i).toNat + t * 2 ^ 32) 0)

/-- Store-buffer entries of a store of `n` bytes per lane (R336). -/
def bufOf (n : Nat) : Nat := if n ≤ 4 then 1 else n / 4

/-- STG and STGP of `n` bytes (R194, R195). In a transaction STGP is STG (R222). -/
def stgOp (b : Bool) (d a : VReg) (off : BitVec 7) (n : Nat) (posted : Bool) (s : State) : Out :=
  issue { b := b, plain := !posted, buf := bufOf n
          u := { regs := [⟨1, d, regsOf n, true, false⟩, ⟨2, a, 2, true, false⟩] } } (fun x s w =>
    storeLanes x s w n posted (fun l => globalEa w l a off n) (fun l => l.dataBytes w.alloc d n)) s

/-! ## Array memory (R198, R199, R315) -/

/-- Effective address of LDA, STA, LDP and STP, unbounded (R191). -/
def localEa (w : Warp) (l : Lane) (a : VReg) (off : BitVec 7) (size : Nat) : Int :=
  ((l.v w.alloc a).toNat : Int) + off.toInt * size

/-- MISALIGN, or PROT beyond a limit, of a local address (R192). -/
def localCheck (ea : Int) (n limit : Nat) : Option LTrap :=
  if ea % (n : Int) ≠ 0 then some ⟨cMISALIGN, 0, BitVec.ofInt 64 ea⟩
  else if ea < 0 ∨ (limit : Int) < ea + n then some ⟨cPROT, 0, BitVec.ofInt 64 ea⟩
  else none

/-- Bytes of a team's array allocation (R28, R312). -/
def Team.arrayBytes (t : Team) : Nat := 12288 * t.units * (if t.twin then 2 else 1)

/-- Core, macro, and byte at 12,288 p + offset of a storage-view offset (R312, R315). -/
def Team.arrayPlace (t : Team) (o : Nat) : Nat × Nat × Nat :=
  let i := o / 12288
  let k := if i < t.units then t.core else t.core + 1
  let p := t.p0 + (if i < t.units then i else i - t.units)
  (k, p, 12288 * p + o % 12288)

/-- The allocation that a lane reaches: its own team's (R198). -/
def State.laneTeam (s : State) (w : Warp) (l : Lane) : Option Team := s.team? w.gk l.team.toNat

/-- The byte of array memory as lane L loads it: its own store that has not performed, else the stored byte (R196). -/
def State.arrayLoad (s : State) (w : Warp) (L d k a n : Nat) : Nat :=
  valAt (fun o => (w.ownByte L (.array d k) o).getD ((s.core d k).arrayByte o)) a n

/-- LDA of `n` bytes; the posted stores before a narrow fence that its word follows are published first (R287). -/
def ldaOp (b : Bool) (d a : VReg) (off : BitVec 7) (n : Nat) (signed : Bool) (s : State) : Out :=
  issue { b := b, load := true, plain := true, tx := false
          u := { regs := [⟨1, d, regsOf n, false, true⟩, ⟨2, a, 1, true, false⟩], var := true } } (fun x s w =>
    x.lanes.foldl (fun f L =>
      if f.stall then f
      else
        let l := f.w.lane L
        let ea := localEa w l a off n
        match f.s.laneTeam f.w l with
        | none => f.trap L ⟨cPROT, 0, BitVec.ofInt 64 ea⟩
        | some t =>
          match localCheck ea n t.arrayBytes with
          | some e => f.trap L e
          | none =>
            let (k, p, o) := t.arrayPlace ea.toNat
            let c := f.s.core t.die k
            let line := arrayLine t.die k o
            let a : Agent := .thread f.w.uid L
            if f.s.canWatch f.w line = false then f.hold id (some 9)
            else if f.s.forcedShut line a then f.hold (fun x => x.urgePosted (forcedBy (x.outside line a)))
            else if touchesPoison c.arrPoison o n && (List.range n).any (fun i =>
                c.arrPoison.contains ((o + i) / 8) && (f.w.ownByte L (.array t.die k) (o + i)).isNone) then
              f.trap L ⟨cMCHECK, 0, BitVec.ofInt 64 ea⟩
            else
              let s0 := f.s.forced line a
              let v := s0.arrayLoad f.w L t.die k o n
              let hit := granules (o % 12288) n
              let s1 := s0.modCore t.die k (fun c => { c with units := c.units.modify p (fun m =>
                if m.mode = .compute then { m with ldaErr := (m.soft.filter (fun g => hit.contains g)).foldl setPut m.ldaErr } else m) })
              { f with s := s1, w := (f.w.watch L line []).setLane L (l.wr w.alloc d (loadWords n signed v)) })
      (Eff.idle s w)) s

/-- STA of `n` bytes. One that compute residence refuses has its point, and its trap, after the warp's earlier accesses (R280, R291). -/
def staOp (b : Bool) (d a : VReg) (off : BitVec 7) (n : Nat) (s : State) : Out :=
  issue { b := b, plain := true, tx := false, buf := bufOf n
          u := { regs := [⟨1, d, regsOf n, true, false⟩, ⟨2, a, 1, true, false⟩] } } (fun x s w =>
    (x.lanes.foldl (fun f L =>
      if f.stall then f
      else
      let l := f.w.lane L
      let ea := localEa w l a off n
      match f.s.laneTeam f.w l with
      | none => f.trap L ⟨cPROT, 0, BitVec.ofInt 64 ea⟩
      | some t =>
        match localCheck ea n t.arrayBytes with
        | some e => f.trap L e
        | none =>
          let (k, p, o) := t.arrayPlace ea.toNat
          let c := f.s.core t.die k
          if (c.units.getD p CimUnit.init).mode = .compute then
            if f.w.spec then f.hold id (some 10)
            else if !f.w.settled then f.hold id
            else f.trap L ⟨cARRMODE, 0, BitVec.ofInt 64 ea⟩
          else if partPoison c.arrPoison o n && (granules o n).any (fun g => partPoison (c.arrPoison.filter (· == g)) o n
              && (List.range 8).any (fun i => (f.w.ownByte L (.array t.die k) (8 * g + i)).isNone)) then
            f.trap L ⟨cMCHECK, 2, BitVec.ofInt 64 ea⟩
          else
            let bs := l.dataBytes w.alloc d n
            let st (seq : Nat) : StoreRec :=
              { lane := L, space := .array t.die k, addr := o, bytes := bs, posted := false, seq := seq, time := f.s.ticks }
            match f.w.window with
            | some v =>
              { f with w := { f.w with window := some { v with buf := v.buf ++ [st v.seq] } } }
            | none => { f with stores := f.stores ++ [st 0] }) (Eff.idle s w)).sendAll) s

/-! ## Private memory (R200) -/

/-- A byte of a lane's window; undefined until written (R13, DESIGN CHOICE, log entry 5). -/
def Lane.winByte (l : Lane) (o : Nat) : Byte := (cellGet l.win o).getD (Config.freeByte l.winSeed o)

/-- LDP of `n` bytes. -/
def ldpOp (b : Bool) (d a : VReg) (off : BitVec 7) (n : Nat) (s : State) : Out :=
  issue { b := b, u := { regs := [⟨1, d, regsOf n, false, true⟩, ⟨2, a, 1, true, false⟩], var := true } } (fun x s w =>
    let limit := (s.recOf w.gk).priv
    Eff.perLane x s w (fun _ l =>
      let ea := localEa w l a off n
      match localCheck ea n limit with
      | some t => { l := l, trap := some t }
      | none =>
        if touchesPoison l.winPoison ea.toNat n then { l := l, trap := some ⟨cMCHECK, 0, BitVec.ofInt 64 ea⟩ }
        else .ok (l.wr w.alloc d (loadWords n false (valAt l.winByte ea.toNat n))))) s

/-- STP of `n` bytes. -/
def stpOp (b : Bool) (d a : VReg) (off : BitVec 7) (n : Nat) (s : State) : Out :=
  issue { b := b, buf := bufOf n, u := { regs := [⟨1, d, regsOf n, true, false⟩, ⟨2, a, 1, true, false⟩] } } (fun x s w =>
    let limit := (s.recOf w.gk).priv
    Eff.perLane x s w (fun _ l =>
      let ea := localEa w l a off n
      match localCheck ea n limit with
      | some t => { l := l, trap := some t }
      | none =>
        if partPoison l.winPoison ea.toNat n then { l := l, trap := some ⟨cMCHECK, 2, BitVec.ofInt 64 ea⟩ }
        else
          let bs := l.dataBytes w.alloc d n
          .ok { l with win := bs.zipIdx.foldl (fun c bi => cellPut c (ea.toNat + bi.2) bi.1) l.win
                       winPoison := clearPoison l.winPoison ea.toNat n })) s

/-! ## Prefetch and constants (R201, R202) -/

/-- PFG: a hint that fills a cache where the access would pass cases 2 to 5 of R192, and nothing else. A pending or struck address register traps
as for any instruction (R48, R306; DESIGN CHOICE, log entry 34). -/
def pfgOp (b : Bool) (a : VReg) (off : BitVec 7) (l1 : Bool) (s : State) : Out :=
  issue { b := b, tx := false, u := { regs := [⟨2, a, 2, true, false⟩] } } (fun x s w =>
    { s := x.lanes.foldl (fun st L =>
        let ea := globalEa w (w.lane L) a off 128
        if ea % 128 ≠ 0 ∨ bits ea 63 55 ≠ 0 then st
        else
          match st.translate w.die w.core (st.asidOf w.gk) ea with
          | (.ok pa e, s1) =>
            if (e.refuses .read).isSome ∨ e.io ∨ s1.poisoned (pa / 128 * 128) 128 ∨ (s1.line (pa / 128)).engine.isSome
                ∨ s1.readShut pa 128 ∨ s1.noRoom w.die (pa / 128) ∨ s1.notNext (pa / 128) ∨ (l1 ∧ s1.l1Shut w.die w.core (pa / 128)) then s1
            else if l1 then s1.touchLine w.die w.core (pa / 128) else s1.fabRead w.die (pa / 128)
          | (_, s1) => s1) s
      w := w }) s

/-- LDC: a plain load of a word of the constant block (R202). -/
def execLdc (d a : VReg) (off : BitVec 7) (b : Bool) (s : State) : Out :=
  issue { b := b, load := true, plain := true
          u := { regs := [⟨1, d, 1, false, true⟩, ⟨2, a, 1, true, false⟩], var := true } } (fun x s w =>
    let rcd := s.recOf w.gk
    loadLanes x s w 4 (fun _ l =>
      let ea := localEa w l a off 4
      match localCheck ea 4 rcd.constsz.toNat with
      | some t => .inl t
      | none => .inr (rcd.const + BitVec.ofInt 64 ea).toNat) (loadDst w.alloc d 4 false)) s

/-! ## The instructions -/

/-- LDG.B8N. -/
def execLdgB8N (d a : VReg) (off : BitVec 7) (b : Bool) (s : State) : Out := ldgOp b d a off 1 false s
/-- LDG.B8I. -/
def execLdgB8I (d a : VReg) (off : BitVec 7) (b : Bool) (s : State) : Out := ldgOp b d a off 1 true s
/-- LDG.B16N. -/
def execLdgB16N (d a : VReg) (off : BitVec 7) (b : Bool) (s : State) : Out := ldgOp b d a off 2 false s
/-- LDG.B16I. -/
def execLdgB16I (d a : VReg) (off : BitVec 7) (b : Bool) (s : State) : Out := ldgOp b d a off 2 true s
/-- LDG.B32. -/
def execLdgB32 (d a : VReg) (off : BitVec 7) (b : Bool) (s : State) : Out := ldgOp b d a off 4 false s
/-- LDG.B64. -/
def execLdgB64 (d a : VReg) (off : BitVec 7) (b : Bool) (s : State) : Out := ldgOp b d a off 8 false s
/-- LDG.B128. -/
def execLdgB128 (d a : VReg) (off : BitVec 7) (b : Bool) (s : State) : Out := ldgOp b d a off 16 false s
/-- STG.B8. -/
def execStgB8 (d a : VReg) (off : BitVec 7) (b : Bool) (s : State) : Out := stgOp b d a off 1 false s
/-- STG.B16. -/
def execStgB16 (d a : VReg) (off : BitVec 7) (b : Bool) (s : State) : Out := stgOp b d a off 2 false s
/-- STG.B32. -/
def execStgB32 (d a : VReg) (off : BitVec 7) (b : Bool) (s : State) : Out := stgOp b d a off 4 false s
/-- STG.B64. -/
def execStgB64 (d a : VReg) (off : BitVec 7) (b : Bool) (s : State) : Out := stgOp b d a off 8 false s
/-- STG.B128. -/
def execStgB128 (d a : VReg) (off : BitVec 7) (b : Bool) (s : State) : Out := stgOp b d a off 16 false s
/-- STGP.B8. -/
def execStgpB8 (d a : VReg) (off : BitVec 7) (b : Bool) (s : State) : Out := stgOp b d a off 1 true s
/-- STGP.B16. -/
def execStgpB16 (d a : VReg) (off : BitVec 7) (b : Bool) (s : State) : Out := stgOp b d a off 2 true s
/-- STGP.B32. -/
def execStgpB32 (d a : VReg) (off : BitVec 7) (b : Bool) (s : State) : Out := stgOp b d a off 4 true s
/-- STGP.B64. -/
def execStgpB64 (d a : VReg) (off : BitVec 7) (b : Bool) (s : State) : Out := stgOp b d a off 8 true s
/-- STGP.B128. -/
def execStgpB128 (d a : VReg) (off : BitVec 7) (b : Bool) (s : State) : Out := stgOp b d a off 16 true s
/-- LDA.B8N. -/
def execLdaB8N (d a : VReg) (off : BitVec 7) (b : Bool) (s : State) : Out := ldaOp b d a off 1 false s
/-- LDA.B8I. -/
def execLdaB8I (d a : VReg) (off : BitVec 7) (b : Bool) (s : State) : Out := ldaOp b d a off 1 true s
/-- LDA.B16N. -/
def execLdaB16N (d a : VReg) (off : BitVec 7) (b : Bool) (s : State) : Out := ldaOp b d a off 2 false s
/-- LDA.B16I. -/
def execLdaB16I (d a : VReg) (off : BitVec 7) (b : Bool) (s : State) : Out := ldaOp b d a off 2 true s
/-- LDA.B32. -/
def execLdaB32 (d a : VReg) (off : BitVec 7) (b : Bool) (s : State) : Out := ldaOp b d a off 4 false s
/-- LDA.B64. -/
def execLdaB64 (d a : VReg) (off : BitVec 7) (b : Bool) (s : State) : Out := ldaOp b d a off 8 false s
/-- LDA.B128. -/
def execLdaB128 (d a : VReg) (off : BitVec 7) (b : Bool) (s : State) : Out := ldaOp b d a off 16 false s
/-- STA.B8. -/
def execStaB8 (d a : VReg) (off : BitVec 7) (b : Bool) (s : State) : Out := staOp b d a off 1 s
/-- STA.B16. -/
def execStaB16 (d a : VReg) (off : BitVec 7) (b : Bool) (s : State) : Out := staOp b d a off 2 s
/-- STA.B32. -/
def execStaB32 (d a : VReg) (off : BitVec 7) (b : Bool) (s : State) : Out := staOp b d a off 4 s
/-- STA.B64. -/
def execStaB64 (d a : VReg) (off : BitVec 7) (b : Bool) (s : State) : Out := staOp b d a off 8 s
/-- STA.B128. -/
def execStaB128 (d a : VReg) (off : BitVec 7) (b : Bool) (s : State) : Out := staOp b d a off 16 s
/-- LDP.B32. -/
def execLdpB32 (d a : VReg) (off : BitVec 7) (b : Bool) (s : State) : Out := ldpOp b d a off 4 s
/-- LDP.B64. -/
def execLdpB64 (d a : VReg) (off : BitVec 7) (b : Bool) (s : State) : Out := ldpOp b d a off 8 s
/-- LDP.B128. -/
def execLdpB128 (d a : VReg) (off : BitVec 7) (b : Bool) (s : State) : Out := ldpOp b d a off 16 s
/-- STP.B32. -/
def execStpB32 (d a : VReg) (off : BitVec 7) (b : Bool) (s : State) : Out := stpOp b d a off 4 s
/-- STP.B64. -/
def execStpB64 (d a : VReg) (off : BitVec 7) (b : Bool) (s : State) : Out := stpOp b d a off 8 s
/-- STP.B128. -/
def execStpB128 (d a : VReg) (off : BitVec 7) (b : Bool) (s : State) : Out := stpOp b d a off 16 s
/-- PFG.L1. -/
def execPfgL1 (a : VReg) (off : BitVec 7) (b : Bool) (s : State) : Out := pfgOp b a off true s
/-- PFG.L2. -/
def execPfgL2 (a : VReg) (off : BitVec 7) (b : Bool) (s : State) : Out := pfgOp b a off false s

end Sys2Proof.Machine
end

