-- ==== Sys2Proof/Machine/Atomic.lean ====
section
/-! DEFINITION. Atomics and compare-and-swap (R203 to R208). -/
namespace Sys2Proof.Machine

open Sys2Proof

/-- Bytes of an atomic (R203, R205). -/
def atomBytes : AtomKind → Nat
  | .add | .minI | .maxI | .and | .or | .xor | .xchg | .faddF32 | .cas32 => 4
  | .addI64 | .minI64 | .maxI64 | .minN64 | .maxN64 | .xchg64 | .faddF64 | .cas64 => 8
  | .addI128 | .cas128 => 16

/-- The value an atomic writes, from the old value m, the operand c and for CAS the compare value; none where CAS does not
swap. With the flags (R203 to R205). -/
def atomNew (k : AtomKind) (m c cmp : Nat) : Option Nat × FFlags :=
  let w32 (f : Word → Word → Word) : Option Nat × FFlags := (some (f (BitVec.ofNat 32 m) (BitVec.ofNat 32 c)).toNat, 0)
  let w64 (f : DWord → DWord → DWord) : Option Nat × FFlags := (some (f (BitVec.ofNat 64 m) (BitVec.ofNat 64 c)).toNat, 0)
  match k with
  | .add => w32 (· + ·)
  | .minI => w32 minI
  | .maxI => w32 maxI
  | .and => w32 (· &&& ·)
  | .or => w32 (· ||| ·)
  | .xor => w32 (· ^^^ ·)
  | .xchg => w32 (fun _ y => y)
  | .faddF32 => let r := f32.add false false m c; (some r.1, r.2)
  | .addI64 => w64 (· + ·)
  | .minI64 => w64 minI
  | .maxI64 => w64 maxI
  | .minN64 => w64 minN
  | .maxN64 => w64 maxN
  | .xchg64 => w64 (fun _ y => y)
  | .faddF64 => let r := f64.add false false m c; (some r.1, r.2)
  | .addI128 => (some ((m + c) % 2 ^ 128), 0)
  | .cas32 | .cas64 | .cas128 => (if m = cmp then some c else none, 0)

/-- An atomic of a thread at a physical address: the old value, the state after it, and the flags. Posted stores that a narrow
fence holds back are published first (R287); posted stores it overlaps go before it (R284). A CAS that does not swap writes nothing, but every
other copy goes all the same (R384, R411); no warp that watches the line answers, for its value stands (DEDUCED, log entry 78). -/
def State.atomicAt (s : State) (w : Warp) (L : Nat) (k : AtomKind) (pa c cmp : Nat) : Nat × State × FFlags :=
  let n := atomBytes k
  let a : Agent := .thread w.uid L
  let s1 := s.forced (pa / 128) a
  let m := valAt (s1.byteFor a) pa n
  let r := atomNew k m c cmp
  match r.1 with
  | none => (m, s1.fabWrite (pa / 128) w.die (some w.core) false, r.2)
  | some v => (m, (s1.markNarrow w L (pa / 128)).homeWrite a w.die (some w.core) false pa (toBytes n v), r.2)

/-- The value of a register, pair or quad of `n` bytes. -/
def Lane.opVal (l : Lane) (alloc : Nat) (r : VReg) (n : Nat) : Nat :=
  (List.range (regsOf n)).foldr (fun i t => (l.rd alloc r (regsOf n) i).toNat + t * 2 ^ 32) 0

/-- Stands in the pending list for a result that no register takes. -/
def noDest : Nat := 0xFE

/-- The result of a floating-point atomic in a lane: the old value, with flags that come when it returns; a flag that traps is there at
once and leaves D (R108, R204). -/
def Eff.atomResult (f : Eff) (L : Nat) (dst : Option LoadDst) (n m : Nat) (fl : FFlags) : Eff :=
  if fl &&& wmTen f.w.wmode ≠ 0 then
    { f with w := f.w.modLane L (fun l => l.orFlags fl) }.trap L ⟨cFPX, (fl &&& wmTen f.w.wmode).toNat, 0⟩
  else
    let w1 := f.w.modLane L (putLoad dst n m)
    if fl = 0 then { f with w := w1 }
    else
      let r := match dst with | some (.regs k _) => k | _ => noDest
      { f with w := { w1 with lateFlags := w1.lateFlags ++ [(r, L, fl)], pend := setPut w1.pend r } }

/-- ATOM, ATOM64 and CAS: the lanes in ascending order, each a plain access of its own, which performs at its issue (R203, R205, R207,
R210; DESIGN CHOICE, log entry 4). -/
def atomOp (b : Bool) (d a c : VReg) (k : AtomKind) (s : State) : Out :=
  let n := atomBytes k
  let cas : Bool := k == .cas32 || k == .cas64 || k == .cas128
  issue { b := b, commit := true, plain := true, tx := false
          u := { regs := [⟨1, d, regsOf n, cas, true⟩, ⟨2, a, 2, true, false⟩, ⟨4, c, regsOf n, true, false⟩], var := true } }
    (fun x s w =>
      if !w.settled then Eff.wait s w
      else
        ((Eff.idle s w).lanes x () (fun f u L =>
          let l := f.w.lane L
          let ea := (l.vp w.alloc a).toNat
          f.reaching L ea n .atomic u (fun g pa _ =>
            if g.s.atomBusy w.uid L (pa / 128) then (g.atHome L pa n true, u)
            else if g.s.loadPoison g.w L pa n then (g.machineCheck L 1 (BitVec.ofNat 64 ea) pa n, u)
            else
              let r := g.s.atomicAt g.w L k pa (l.opVal w.alloc c n) (l.opVal w.alloc d n)
              ({ g with s := r.2.1, wrote := g.wrote ++ [(L, pa / 128)] }.atomResult L (loadDst w.alloc d n false l) n r.1 r.2.2, u)))).1) s

/-- AtomAdd. -/
def execAtomAdd (d a c : VReg) (b : Bool) (s : State) : Out := atomOp b d a c .add s
/-- AtomMinI. -/
def execAtomMinI (d a c : VReg) (b : Bool) (s : State) : Out := atomOp b d a c .minI s
/-- AtomMaxI. -/
def execAtomMaxI (d a c : VReg) (b : Bool) (s : State) : Out := atomOp b d a c .maxI s
/-- AtomAnd. -/
def execAtomAnd (d a c : VReg) (b : Bool) (s : State) : Out := atomOp b d a c .and s
/-- AtomOr. -/
def execAtomOr (d a c : VReg) (b : Bool) (s : State) : Out := atomOp b d a c .or s
/-- AtomXor. -/
def execAtomXor (d a c : VReg) (b : Bool) (s : State) : Out := atomOp b d a c .xor s
/-- AtomXchg. -/
def execAtomXchg (d a c : VReg) (b : Bool) (s : State) : Out := atomOp b d a c .xchg s
/-- AtomFaddF32. -/
def execAtomFaddF32 (d a c : VReg) (b : Bool) (s : State) : Out := atomOp b d a c .faddF32 s
/-- AtomAddI64. -/
def execAtomAddI64 (d a c : VReg) (b : Bool) (s : State) : Out := atomOp b d a c .addI64 s
/-- AtomMinI64. -/
def execAtomMinI64 (d a c : VReg) (b : Bool) (s : State) : Out := atomOp b d a c .minI64 s
/-- AtomMaxI64. -/
def execAtomMaxI64 (d a c : VReg) (b : Bool) (s : State) : Out := atomOp b d a c .maxI64 s
/-- AtomMinN64. -/
def execAtomMinN64 (d a c : VReg) (b : Bool) (s : State) : Out := atomOp b d a c .minN64 s
/-- AtomMaxN64. -/
def execAtomMaxN64 (d a c : VReg) (b : Bool) (s : State) : Out := atomOp b d a c .maxN64 s
/-- AtomXchg64. -/
def execAtomXchg64 (d a c : VReg) (b : Bool) (s : State) : Out := atomOp b d a c .xchg64 s
/-- AtomAddI128. -/
def execAtomAddI128 (d a c : VReg) (b : Bool) (s : State) : Out := atomOp b d a c .addI128 s
/-- AtomFaddF64. -/
def execAtomFaddF64 (d a c : VReg) (b : Bool) (s : State) : Out := atomOp b d a c .faddF64 s
/-- Cas32. -/
def execCas32 (d a c : VReg) (b : Bool) (s : State) : Out := atomOp b d a c .cas32 s
/-- Cas64. -/
def execCas64 (d a c : VReg) (b : Bool) (s : State) : Out := atomOp b d a c .cas64 s
/-- Cas128. -/
def execCas128 (d a c : VReg) (b : Bool) (s : State) : Out := atomOp b d a c .cas128 s

end Sys2Proof.Machine
end

