-- ==== Sys2Proof/Machine/Control.lean ====
section
/-! DEFINITION. Branches, calls, indirect transfers, PRIO, EXIT, NOP (R174 to R179, R26, R53). -/
namespace Sys2Proof.Machine

open Sys2Proof

/-! ## The return stack (R26) -/

/-- Pushes a return address: nothing when the stack is full. -/
def Lane.push (l : Lane) (depth : Nat) (ret : DWord) : Option Lane :=
  if l.stack.length < depth then
    some { l with stack := ret :: l.stack, stackPoison := l.stackPoison.filter (· != l.stack.length) }
  else none

/-- Pops an entry: the address, and the lane without it. -/
def Lane.pop (l : Lane) : Option (DWord × Lane) :=
  match l.stack with
  | [] => none
  | t :: rest => some (t, { l with stack := rest, stackPoison := l.stackPoison.filter (· < rest.length) })

/-- The newest entry is poisoned (R441). -/
def Lane.topPoisoned (l : Lane) : Bool := l.stackPoison.contains (l.stack.length - 1)

/-- Return-stack depth of a grid (R25). -/
def State.stackDepth (s : State) (gk : Nat) : Nat := (s.recOf gk).stk

/-- A target of an indirect transfer that traps (R177). -/
def badTarget (t : DWord) : Option LTrap :=
  if t.getLsbD 0 then some ⟨cMISALIGN, 0, t⟩
  else if bits t.toNat 63 55 ≠ 0 then some ⟨cPROT, 1, t⟩
  else none

/-! ## Moving lanes -/

/-- Lanes that move, each to a target of its own; the others take a trap. `f` gives a lane's target with its new content. -/
def moveLanes (x : Ctx) (s : State) (w : Warp) (f : Lane → LTrap ⊕ (DWord × Lane)) : Eff :=
  x.lanes.foldl (fun e L =>
    match f (e.w.lane L) with
    | .inl t => e.trap L t
    | .inr (t, l) => { e with w := e.w.setLane L l, moves := e.moves ++ [(t, x.e.pri, laneBit L)] }) (Eff.idle s w)

/-- BR and CALL: the lanes whose condition holds go to the target, a CALL pushing first (R174, R175). -/
def branchOp (k : Kind) (off : BitVec 16) (pn : Bool) (pg : PReg) (pr : BitVec 3) (u call : Bool) (s : State) : Out :=
  issue k (fun x s w =>
    let taken := x.lanes.filter (fun L => (w.lane L).pred pg != pn)
    if u ∧ taken ≠ [] ∧ taken.length ≠ x.lanes.length then Eff.trapAll x s w cUNIFORM 0
    else
      let target := x.pc + 2 * off.signExtend 64
      let depth := s.stackDepth w.gk
      taken.foldl (fun e L =>
        let l := e.w.lane L
        match (if call then l.push depth x.next else some l) with
        | none => e.trap L ⟨cSTACK, 0, 0⟩
        | some l1 => { e with w := e.w.setLane L l1, moves := e.moves ++ [(target, pr, laneBit L)] }) (Eff.idle s w)) s

/-- BR. -/
def execBr (off : BitVec 16) (pn : Bool) (pg : PReg) (pr : BitVec 3) (u : Bool) (b : Bool) (s : State) : Out :=
  branchOp { b := b, u := { ps := [pg] } } off pn pg pr u false s

/-- CALL. -/
def execCall (off : BitVec 16) (pn : Bool) (pg : PReg) (pr : BitVec 3) (u : Bool) (b : Bool) (s : State) : Out :=
  branchOp { b := b, buf := 2, u := { ps := [pg], fl := true } } off pn pg pr u true s

/-- JMPI. -/
def execJmpi (a : VReg) (b : Bool) (s : State) : Out :=
  issue { b := b, u := { regs := [⟨2, a, 2, true, false⟩] } } (fun x s w => moveLanes x s w (fun l =>
    let t := l.vp w.alloc a
    match badTarget t with
    | some e => .inl e
    | none => .inr (t, l))) s

/-- CALLI: a target that traps is met before a full stack. DEDUCED, log entry 22. -/
def execCalli (a : VReg) (b : Bool) (s : State) : Out :=
  issue { b := b, buf := 2, u := { regs := [⟨2, a, 2, true, false⟩], fl := true } } (fun x s w => moveLanes x s w (fun l =>
    let t := l.vp w.alloc a
    match badTarget t with
    | some e => .inl e
    | none =>
      match l.push (s.stackDepth w.gk) x.next with
      | none => .inl ⟨cSTACK, 0, 0⟩
      | some l1 => .inr (t, l1))) s

/-- RET. -/
def execRet (b : Bool) (s : State) : Out :=
  issue { b := b, u := { fl := true } } (fun x s w => moveLanes x s w (fun l =>
    match l.pop with
    | none => .inl ⟨cSTACK, 1, 0⟩
    | some (t, l1) =>
      if l.topPoisoned then .inl ⟨cMCHECK, 0, 0⟩
      else
        match badTarget t with
        | some e => .inl e
        | none => .inr (t, l1))) s

/-- PRIO: sets the priority of the active entry; no lane moves (R178). -/
def execPrio (n : BitVec 3) (b : Bool) (s : State) : Out :=
  issue { b := b } (fun _ s w => { s := s, w := w, pri := some n }) s

/-- NOP. -/
def execNop (b : Bool) (s : State) : Out := issue { b := b } (fun _ s w => Eff.idle s w) s

/-! ## EXIT (R41, R179) -/

/-- A lane exits: it leaves the frontier for good. -/
def Eff.exitLane (f : Eff) (L : Nat) : Eff :=
  { f with w := f.w.modLane L (fun l => { l with life := .exited }), gone := f.gone ||| laneBit L }

/-- The decrement of a spawned lane's join counter, after its posted stores are visible at package scope (R179). -/
def Eff.exitJoin (f : Eff) (L : Nat) (j : DWord) : Eff :=
  let mine := postedBy f.w.uid [L]
  (f.reaching L j.toNat 8 .atomic () (fun g pa _ =>
    if g.s.atomBusy f.w.uid L (pa / 128) then (g.atHome L pa 8 true, ())
    else if !g.s.canPublish mine then (g.hold (fun x => x.urgePosted mine), ())
    else if g.s.loadPoison g.w L pa 8 then (g.machineCheck L 1 j pa 8, ())
    else
      let r := (g.s.publish mine).atomicAt g.w L .addI64 pa (2 ^ 64 - 1) 0
      ({ g with s := r.2.1, wrote := g.wrote ++ [(L, pa / 128)] }.exitLane L, ()))).1

/-- A copy that the warp has issued is pending (R256). -/
def State.copyDue (s : State) (w : Warp) : Bool := (s.core w.die w.core).copies.any (fun c => c.pending && c.w == w.uid)

/-- EXIT: takes effect when the warp is not speculative, its stores have performed and its copies are under way (R179, R256); barriers that
counted the lanes may then complete (R212, R216). -/
def execExit (b : Bool) (s : State) : Out :=
  issue { b := b, commit := true, tx := false } (fun x s w =>
    if w.sent ≠ [] ∨ s.copyDue w ∨ (!w.settled ∧ x.lanes.any (fun L => (w.lane L).join.isSome)) then Eff.wait s w
    else
      let f := ((Eff.idle s w).lanes x () (fun f u L =>
        match (f.w.lane L).join with
        | none => (f.exitLane L, u)
        | some j => (f.exitJoin L j, u))).1
      if f.stall then f
      else
        let r := f.s.checkAfter f.w
        { f with s := r.1, w := r.2 }) s

end Sys2Proof.Machine
end

