-- ==== Sys2Proof/Machine/Spawn.lean ====
section
/-! DEFINITION. Spawn records and the Cooper's store (R366 to R372), SPAWN (R180 to R184), JOINW, JOINT, WAITW (R185 to R187),
the launch queues' push and LAUNCH (R188, R352). -/
namespace Sys2Proof.Machine

open Sys2Proof

/-! ## Spill rings (R371 to R373) -/

/-- Slots of a grid's spill ring on a die (R371). -/
def LaunchRec.ringSlots (r : LaunchRec) : Nat := r.ringsz.toNat / 64

/-- The ring of a grid on a die. -/
def Die.ringOf (d : Die) (gk : Nat) : Ring := (d.rings.find? (fun x => x.gk == gk)).getD { gk := gk, tail := 0, slots := [] }

/-- Records of a grid in the ring of a die. -/
def Die.ring (d : Die) (gk : Nat) : List SpawnRec := (d.ringOf gk).slots.map (·.rcd)

/-- Replaces the ring of a grid on a die. -/
def Die.setRing (d : Die) (x : Ring) : Die := { d with rings := d.rings.filter (fun y => y.gk != x.gk) ++ [x] }

/-- Slots from the oldest record of a ring to its tail: that of a record discarded between them is not free yet (R371; DESIGN CHOICE, log
entry 15). -/
def Ring.used (r : Ring) : Nat := r.tail - ((r.slots.head?).map (·.pos)).getD r.tail

/-- The ring of a grid on a die has a free slot (R372, R373). -/
def State.ringRoom (s : State) (d gk : Nat) : Bool :=
  !((s.die d).deadRings.contains gk) && decide (((s.die d).ringOf gk).used < (s.recOf gk).ringSlots)

/-- How the Cooper's access to a range of the grid's address space turns out (R373, R375). -/
inductive Reached where
  | ok (pas : List (Nat × Nat))
  | wait
  | never
deriving DecidableEq, Repr

/-- Reaches `n` bytes for the Cooper of a core: a resolvable fault is noted and waited for (R373). -/
def State.coopReach (s : State) (d k gk va n : Nat) (acc : Access) : Reached × State :=
  let asid := s.asidOf gk
  (pieces va n).foldl (fun x p =>
    match x.1 with
    | .ok l =>
      let page := bits p.1 54 16
      if bits p.1 63 55 ≠ 0 ∨ 2 ^ 64 ≤ p.1 then (.never, x.2)
      else if (x.2.core d k).cooper.answers.contains (asid, page) then
        (.never, x.2.modCore d k (fun c => { c with cooper := { c.cooper with
          answers := c.cooper.answers.filter (· != (asid, page)) } }))
      else
        match x.2.translate d k asid p.1 with
        | (.fault m g, s1) => (.wait, s1.noteFault (mkFault asid p.1 acc 2 d k m g) (.cooper d k))
        | (.held, s1) => (.wait, s1)
        | (.backing, s1) => (.never, s1)
        | (.ok pa e, s1) => if e.io || (e.refuses acc).isSome then (.never, s1) else (.ok (l ++ [(pa, p.2)]), s1)
    | _ => x) (.ok [], s)

/-- Lines that hold the bytes of some places. -/
def linesOf (pas : List (Nat × Nat)) : List Nat :=
  dedup (pas.flatMap (fun p => (List.range ((p.1 % 128 + p.2 + 127) / 128)).map (fun i => p.1 / 128 + i)))

/-- Writes a slot whose format is not architectural: its bytes are free values (R373, DESIGN CHOICE, log entry 15); none while a line
of it cannot be written. -/
def State.scribble (s : State) (d k : Nat) (pas : List (Nat × Nat)) : Option State × State :=
  match (linesOf pas).find? s.writerShut with
  | some n => (none, s.urge (128 * n) 128 true)
  | none =>
    let s1 := (pas.foldl (fun (x : Nat × State) p =>
      (x.1 + p.2, x.2.homeWrite (.cooper d k) d none true p.1 ((List.range p.2).map (fun i => Config.freeByte s.free (x.1 + i)))))
      (0, { s with free := s.free + 1 })).2
    (some s1, s1)

/-- Reads a slot: the bytes where they are not those written there; none while they cannot be read (R373). -/
def State.slotRead (s : State) (d k seed : Nat) (pas : List (Nat × Nat)) : Option (Option (List Byte)) × State :=
  let a : Agent := .cooper d k
  let r := (linesOf pas).foldl (fun (x : State × Option Nat) n =>
    if x.2.isSome then x
    else if x.1.agentShut a (128 * n) 128 || x.1.noRoom d n then (x.1, some n)
    else ((x.1.forced n a).fabRead d n, none)) (s, none)
  match r.2 with
  | some n => (none, (s.urgeRead a (128 * n) 128).urgeFor (r.1.filterRoom n))
  | none =>
    let bs := pas.flatMap (fun p => bytesAt (r.1.byteFor a) p.1 p.2)
    (some (if bs = (List.range bs.length).map (Config.freeByte seed) then none else some bs), r.1)

/-- A record read from bytes that a program has put in its slot: its items are what those bytes give (R373, DESIGN CHOICE, log entry
15). -/
def SpawnRec.altered (r : SpawnRec) (bs : List Byte) : SpawnRec :=
  let d (i : Nat) : DWord := Config.slotWord bs (i + 1) ++ Config.slotWord bs i
  { r with entry := (Config.slotWord bs 0).toNat % 8, sid := d 1, root := d 3
           join := if (Config.slotWord bs 0).getLsbD 31 then some (d 5) else none
           payload := (List.range 8).map (fun i => Config.slotWord bs (7 + i)) }

/-- Address of slot `i` of a grid's ring on a die (R371). -/
def State.ringAddr (s : State) (d gk i : Nat) : Nat :=
  let r := s.recOf gk
  r.ring.toNat + d * r.ringsz.toNat + 64 * (i % r.ringSlots)

/-- The ring of a grid on a die cannot be used from now on: one record (R373). -/
def State.killRing (s : State) (d k gk va : Nat) : State :=
  if s.errRoom d ∧ !(s.die d).deadRings.contains gk then
    (s.report (s.mkErr 0x09 0 d k (s.gridId gk) noTeam 0 (BitVec.ofNat 64 va))).modDie d (fun x => { x with deadRings := x.deadRings ++ [gk] })
  else s

/-- Writes a record to its ring's tail: whether it is there, or the ring is unusable; none while it waits (R371, R373). -/
def State.ringPut (s : State) (d k : Nat) (r : SpawnRec) : Option Bool × State :=
  let ring := (s.die d).ringOf r.gk
  let va := s.ringAddr d r.gk ring.tail
  match s.coopReach d k r.gk va 64 .write with
  | (.wait, s1) => (none, s1)
  | (.never, s1) => let s2 := s1.killRing d k r.gk va; (if s2.ringRoom d r.gk then none else some false, s2)
  | (.ok pas, s1) =>
    match s1.scribble d k pas with
    | (none, s2) => (none, s2)
    | (some s2, _) => (some true, s2.modDie d (fun x => x.setRing { ring with tail := ring.tail + 1, slots := ring.slots ++ [⟨r, ring.tail, s1.free⟩] }))

/-- Takes the oldest unassigned record whose ring has room to its ring: whether to go on, none while it waits. -/
def State.spillOne (s : State) (d k : Nat) : Option Bool × State :=
  match (s.core d k).cooper.store.find? (fun r => s.ringRoom d r.gk) with
  | none => (some false, s)
  | some r =>
    match s.ringPut d k r with
    | (some true, s1) =>
      (some true, s1.modCore d k (fun c => { c with cooper := { c.cooper with store := c.cooper.store.erase r } }))
    | (some false, s1) => (some true, s1)
    | (none, s1) => (none, s1)

/-- Spills while the occupancy is above 768 and a record can go; whether it has come to its end (R371). -/
def State.spillLoop (d k : Nat) : Nat → State → Bool × State
  | 0, s => (false, s)
  | n + 1, s =>
    if (s.core d k).cooper.occupancy ≤ 768 then (true, s)
    else
      match s.spillOne d k with
      | (some true, s1) => State.spillLoop d k n s1
      | (some false, s1) => (true, s1)
      | (none, s1) => (false, s1)

/-- A spill goes on as far as it can (R371). -/
def State.spill (s : State) (d k : Nat) : Bool × State :=
  let x := State.spillLoop d k 512 s
  (x.1, x.2.modCore d k (fun c => { c with cooper := { c.cooper with spilling := !x.1 } }))

/-- Offers a record to the Cooper of a core: whether it is accepted, none while the offer waits. It is refused where the store and the
grid's ring are full (R372). With the store full a spill is due: it goes first, so that records keep the order of their acceptance
(R379; DEDUCED, log entry 68). The records of a killed grid are discarded. -/
def State.coopAccept (s : State) (d k : Nat) (r : SpawnRec) : Option Bool × State :=
  let keep (a : State) : State :=
    (a.modCore d k (fun c => { c with cooper := { c.cooper with store := c.cooper.store ++ [r] } })).gather d k
  if (s.grid? r.gk).any (·.killed) then (some true, s)
  else if (s.core d k).cooper.occupancy < 1024 then (some true, keep s)
  else if !s.ringRoom d r.gk then (some false, s)
  else
    match s.spill d k with
    | (false, s1) => (none, s1)
    | (true, s1) =>
      if (s1.core d k).cooper.occupancy < 1024 then (some true, keep s1)
      else if s1.ringRoom d r.gk then s1.ringPut d k r
      else (some false, s1)

/-- A warp of the given teams parks in JOINW: partial warps with a record of one of them are due (R369). -/
def State.joinDue (s : State) (d gk : Nat) (teams : List Nat) : State :=
  let now := (s.die d).cycles
  s.modDieCores d (fun _ c => { c with cooper := { c.cooper with parts := c.cooper.parts.map (fun p =>
    if p.due.isNone ∧ p.gk = gk ∧ p.held.any (fun r => teams.contains r.team) then p.dueBy now else p) } })

/-! ## SPAWN (R180 to R184) -/

/-- Identity of a child (R182). -/
def deriveSid (key : List Word) (parent : DWord) (spawned : Bool) (ordinal : DWord) : DWord :=
  let k1 := key.set 1 (~~~(key.getD 1 0))
  let k2 := if spawned then k1.set 2 (~~~(key.getD 2 0)) else k1
  let x := chacha8 k2 ordinal parent
  let lo : DWord := x.getD 1 0 ++ x.getD 0 0
  let hi : DWord := x.getD 3 0 ++ x.getD 2 0
  if lo ≠ 0 then lo else if hi ≠ 0 then hi else 1

/-- The record of lane L's SPAWN and the lane after it has taken an ordinal (R181, R366). -/
def State.spawnRec (s : State) (w : Warp) (l : Lane) (e : Nat) (a c : VReg) : SpawnRec × Lane :=
  let parent := if l.sid = 0 then l.gtid else l.sid
  let child := deriveSid (s.rngKey w.gk) parent (l.sid != 0) l.ordinal
  ({ gk := w.gk, entry := e, team := l.team.toNat, sid := child, root := l.gtid
     join := match c with | .z => none | _ => some (l.vp w.alloc c)
     payload := (List.range 8).map (fun i => l.rd w.alloc a 8 i) },
   { l with ordinal := l.ordinal + 1, lastsid := child })

/-- The predicate of a lane's spawn is set, for good: 1 where the record was accepted (R181, R184). -/
def Warp.spawnTold (w : Warp) (L : Nat) (d : PReg) (b : Bool) : Warp := w.lasting id (fun ls => ls.modify L (fun l => l.setPred d b)) id

/-- A spawn takes its place in program order: its record is offered, and where it is accepted the join counter grows by 1; whether it is, none
while it waits. The lane's posted stores reach their package points first (R181, R189
item 1; DEDUCED, log entry 11). A counter that has been poisoned meanwhile refuses the record (DEDUCED, log entry 41). -/
def State.offerSpawn (s : State) (w : Warp) (st : StoreRec) (r : SpawnRec) : Option Bool × State :=
  let mine := postedBy w.uid [st.lane]
  if !s.canPublish mine then (none, s.urgePosted mine)
  else if r.join.isSome && s.atomBusy w.uid st.lane (st.addr / 128) then (none, s.awaitLine w.uid st.lane st.addr 8 true)
  else
    let s1 := s.publish mine
    if r.join.isSome && s1.poisoned st.addr 8 then (some false, s1)
    else
      match s1.coopAccept w.die w.core r with
      | (none, s2) => (none, s2)
      | (some false, s2) => (some false, s2)
      | (some true, s2) => (some true, if r.join.isSome then (s2.atomicAt w st.lane .addI64 st.addr 1 0).2.1 else s2)

/-- A spawn of a warp that is not speculative leaves the core. It waits in `sent` for earlier accesses, and never keeps its
warp from going on (R184, R189, R331). -/
def State.sendAny (s : State) (w : Warp) (st : StoreRec) : State × Warp :=
  match st.spawn with
  | none => (s, { w with sent := w.sent ++ [st] })
  | some (r, d) =>
    let late : Warp := { w with sent := w.sent ++ [st] }
    if w.sent ≠ [] ∨ w.loadsDue then (s, late)
    else
      match s.offerSpawn w st r with
      | (some ok, s1) => (s1, w.spawnTold st.lane d ok)
      | (none, s1) => (s1, late)

/-- One lane of SPAWN: its record is made, held in a window, and offered at its place (R181, R184). -/
def Eff.spawnLane (f : Eff) (e : Nat) (d : PReg) (a c : VReg) (L : Nat) : Eff :=
  let r := f.s.spawnRec f.w (f.w.lane L) e a c
  let go (g : Eff) (pa : Nat) : Eff :=
    let w1 := g.w.setLane L r.2
    let st (seq : Nat) : StoreRec :=
      { lane := L, space := .global, addr := pa, bytes := [], posted := false, seq := seq, spawn := some (r.1, d), time := f.s.ticks }
    match w1.window with
    | some v => { g with w := { w1 with window := some { v with buf := v.buf ++ [st v.seq] } } }
    | none =>
      let o := g.s.sendAny w1 (st 0)
      { g with s := o.1, w := o.2, wrote := if r.1.join.isSome ∧ o.2.sent = w1.sent then g.wrote ++ [(L, pa / 128)] else g.wrote }
  match r.1.join with
  | none => go f 0
  | some j =>
    (f.reaching L j.toNat 8 .atomic () (fun g pa _ =>
      if g.s.loadPoison g.w L pa 8 then (g.machineCheck L 1 j pa 8, ()) else (go g pa, ()))).1

/-- SPAWN: a lane whose indexed operand is out of range traps REGIDX before the entry is looked at (DESIGN CHOICE, log entry 34). -/
def execSpawn (e : BitVec 3) (d : PReg) (a c : VReg) (b : Bool) (s : State) : Out :=
  issue { b := b, tx := false
          u := { regs := [⟨2, a, 8, true, false⟩, ⟨4, c, 2, true, false⟩], pd := [d], var := true } } (fun x s w =>
    if (s.recOf w.gk).spawnEntry e.toNat = 0 then Eff.trapAll x s w cILLEGAL 0
    else ((Eff.idle s w).lanes x () (fun f u L => (f.spawnLane e.toNat d a c L, u))).1) s

/-! ## Join and wait (R185 to R187) -/

/-- Lanes whose word an instruction can read: their addresses, with the lanes that trap or park (R185, R187, R192). -/
def waitLanes (x : Ctx) (s : State) (w : Warp) (n : Nat) (a : VReg) : Eff × List (Nat × DWord) :=
  (Eff.idle s w).lanes x [] (fun f l L =>
    let ea := (f.w.lane L).vp w.alloc a
    f.reaching L ea.toNat n .read l (fun g pa _ =>
      if g.s.loadPoison g.w L pa n then (g.machineCheck L 0 ea pa n, l) else (g, l ++ [(L, ea)])))

/-- JOINW: the run ends and the warp parks; JOINW_WAKE readies it (R185). -/
def execJoinw (a : VReg) (b : Bool) (s : State) : Out :=
  issue { b := b, commit := true, plain := true, tx := false, u := { regs := [⟨2, a, 2, true, false⟩] } } (fun x s w =>
    if !w.settled then Eff.wait s w
    else
      let r := waitLanes x s w 8 a
      if r.1.stall ∨ r.2 = [] then r.1
      else
        let teams := dedup (r.2.map (fun y => (w.lane y.1).team.toNat))
        let w1 := { r.1.w with wait := some (.joinw r.2 (r.1.s.die w.die).cycles), noYield := false }
        { r.1 with s := r.1.s.joinDue w.die w.gk teams, w := w1, endRun := true }) s

/-- JOINT: a plain load into a predicate (R186). -/
def execJoint (d : PReg) (a : VReg) (b : Bool) (s : State) : Out :=
  issue { b := b, load := true, plain := true, tx := false
          u := { regs := [⟨2, a, 2, true, false⟩], pd := [d], var := true } } (fun x s w =>
    loadLanes x s w 8 (fun _ l => .inr (l.vp w.alloc a).toNat) (fun _ => if d.val = 7 then none else some (.zero d))) s

/-- WAITW (R187). -/
def execWaitw (a c : VReg) (b : Bool) (s : State) : Out :=
  issue { b := b, commit := true, plain := true, tx := false
          u := { regs := [⟨2, a, 2, true, false⟩, ⟨4, c, 1, true, false⟩] } } (fun x s w =>
    if !w.settled then Eff.wait s w
    else
      let r := waitLanes x s w 4 a
      if r.1.stall ∨ r.2 = [] then r.1
      else
        let ws := r.2.map (fun y => (y.1, y.2, (w.lane y.1).v w.alloc c))
        { r.1 with w := { r.1.w with wait := some (.waitw ws) }, endRun := true }) s

/-! ## Launch (R188, R352) -/

/-- Queue q holds 1,024 records, those on their way to it included. -/
def State.queueFull (s : State) (q : Nat) : Bool :=
  decide (1024 ≤ (s.lu.queues.getD q Queue.init).fifo.length + (s.lu.pushes.filter (fun x => x.1 == q)).length)

/-- Pushes a record into queue q: it becomes a grid, drained or killed with its parent (R352, R365). -/
def State.pushGrid (s : State) (r : LaunchRec) (addr : DWord) (byRuntime : Bool) (q : Nat) (parent : Option Nat) : State :=
  let (k, s1) := s.fresh
  let p := parent.bind (fun x => s.grid? x)
  let g : Grid :=
    { key := k, rcd := r, addr := addr, byRuntime := byRuntime, queue := q, st := .queued, nextTeam := 0, ended := 0,
      parentKey := parent, drained := p.any (·.drained), drainTold := false, killed := p.any (·.killed), finished := false }
  { s1 with
    grids := s1.grids ++ [g]
    lu := { s1.lu with queues := s1.lu.queues.modify q (fun x => { x with fifo := x.fifo ++ [k] }) } }

/-- A record as LAUNCH queues it (R188, R352). -/
def childRecord (p r : LaunchRec) : LaunchRec :=
  let cls := min p.cls r.cls
  { r with
    asid := BitVec.ofNat 32 p.asidN
    parent := p.grid
    sched := (r.sched &&& ~~~(0x00F30000 : Word)) ||| BitVec.ofNat 32 ((p.depth + 1) * 2 ^ 20 + cls * 2 ^ 16) }

/-- LAUNCH in a lane; only in the team leader's does it queue anything (R33). It waits until the warp is not speculative after its
checks (R188, R342). -/
def Eff.launchLane (f : Eff) (d : PReg) (a : VReg) (leader : Option Nat) (L : Nat) : Eff :=
  let told (g : Eff) (v : Bool) : Eff := { g with w := g.w.modLane L (fun l => l.setPred d v) }
  let mine := postedBy f.w.uid [L]
  let u := f.w.uid
  if leader ≠ some L then told f false
  else
    let ea := (f.w.lane L).vp f.w.alloc a
    (f.reaching L ea.toNat 256 .read () (fun g pa _ =>
      let p := g.s.recOf g.w.gk
      if g.w.spec then (g.hold id (some 10), ())
      else if !g.w.settled then (g.hold id, ())
      else if p.depth = 10 then (told g false, ())
      else if g.s.loadBusy u L g.w.die pa 128 then (g.atHome L pa 128 false, ())
      else if g.s.loadBusy u L g.w.die (pa + 128) 128 then (g.atHome L (pa + 128) 128 false, ())
      else if !g.s.canPublish mine then (g.hold (fun x => x.urgePosted mine), ())
      else if g.s.loadPoison g.w L pa 256 then (g.machineCheck L 0 ea pa 256, ())
      else
        let ag : Agent := .thread u L
        let s2 := ((g.s.forced (pa / 128) ag).forced (pa / 128 + 1) ag).publish mine
        let r := childRecord p (LaunchRec.ofBytes (fun o => s2.byteFor ag (pa + o)))
        if s2.queueFull r.queue then (told { g with s := s2 } false, ())
        else (told { g with s := s2.pushGrid r ea false r.queue (some g.w.gk) } true, ()))).1

/-- LAUNCH. -/
def execLaunch (d : PReg) (a : VReg) (b : Bool) (s : State) : Out :=
  issue { b := b, tx := false, u := { regs := [⟨2, a, 2, true, false⟩], pd := [d], var := true } } (fun x s w =>
    if w.gathered then Eff.trapAll x s w cDETACHED 0
    else ((Eff.idle s w).lanes x () (fun f u L =>
      (f.launchLane d a (if w.index = 0 then some (lowestLane x.e.mask) else none) L, u))).1) s

end Sys2Proof.Machine
end

