-- ==== Sys2Proof/Machine/Sync.lean ====
section
/-! DEFINITION. BAR, BARR, BARM (R212 to R216) and FENCE (R217, R218, R286). -/
namespace Sys2Proof.Machine

open Sys2Proof

/-! ## Team barriers -/

/-- Lanes arrive at the team barrier: their posted stores are visible to the team, and the instance may complete (R213). `ar`
makes a lane's arrival. -/
def arriveTeam (x : Ctx) (s : State) (w : Warp) (ar : Nat → Arrival) : Eff :=
  let idx := (w.lane 0).team.toNat
  let s1 := s.publishTo 1 (postedBy w.uid x.lanes)
  let s2 := s1.modTeam w.gk idx (fun t => { t with arrivals := t.arrivals ++ x.lanes.map ar })
  let r := s2.checkAfter w
  let done : Bool := match r.1.team? w.gk idx with | some t => t.arrivals.isEmpty | none => false
  { s := r.1, w := r.2, park := some (if done then .nextRun else .bar)
    gone := x.mask &&& r.2.heldTraps.foldl (fun m t => m ||| t.mask) 0 }

/-- BAR and BARR (R212 to R215). -/
def barOp (k : Kind) (ar : Warp → Lane → Option Nat × DWord × VReg) (s : State) : Out :=
  issue { k with commit := true, tx := false, noHandler := true } (fun x s w =>
    if w.gathered then Eff.trapAll x s w cDETACHED 0
    else if !w.settled then Eff.wait s w
    else arriveTeam x s w (fun L =>
      let a := ar w (w.lane L)
      { w := w.uid, lane := L, tid := w.index.toNat * w.width + L, fn := a.1, val := a.2.1, dst := a.2.2, pc := x.pc,
        pri := x.e.pri, insn := s.insn })) s

/-- BAR. -/
def execBar (b : Bool) (s : State) : Out := barOp { b := b } (fun _ _ => (none, 0, .z)) s

/-- BARR with function `fn` (R214). -/
def barrInsn (b : Bool) (d a : VReg) (fn : Nat) (s : State) : Out :=
  let n := if barrPair fn then 2 else 1
  barOp { b := b, u := { regs := [⟨1, d, n, false, true⟩, ⟨2, a, n, true, false⟩] } }
    (fun w l => (some fn, if barrPair fn then l.vp w.alloc a else (l.v w.alloc a).zeroExtend 64, d)) s

/-- BARR.ADD.I64. -/
def execBarrAddI64 (d a : VReg) (b : Bool) (s : State) : Out := barrInsn b d a 0 s
/-- BARR.ADD.F32. -/
def execBarrAddF32 (d a : VReg) (b : Bool) (s : State) : Out := barrInsn b d a 1 s
/-- BARR.ADD.F64. -/
def execBarrAddF64 (d a : VReg) (b : Bool) (s : State) : Out := barrInsn b d a 2 s
/-- BARR.MIN.F32. -/
def execBarrMinF32 (d a : VReg) (b : Bool) (s : State) : Out := barrInsn b d a 3 s
/-- BARR.MAX.F32. -/
def execBarrMaxF32 (d a : VReg) (b : Bool) (s : State) : Out := barrInsn b d a 4 s
/-- BARR.MIN.I64. -/
def execBarrMinI64 (d a : VReg) (b : Bool) (s : State) : Out := barrInsn b d a 5 s
/-- BARR.MAX.I64. -/
def execBarrMaxI64 (d a : VReg) (b : Bool) (s : State) : Out := barrInsn b d a 6 s
/-- BARR.OR.B32. -/
def execBarrOrB32 (d a : VReg) (b : Bool) (s : State) : Out := barrInsn b d a 7 s

/-! ## BARM (R216) -/

/-- A mask that a lane may bring: its own bit set, none at or above wwid. -/
def barmOk (w : Warp) (L : Nat) (m : Mask) : Bool := m.getLsbD L && (m &&& ~~~fullMask w.width == 0)

/-- BARM. -/
def execBarm (a : VReg) (b : Bool) (s : State) : Out :=
  issue { b := b, commit := true, tx := false, noHandler := true, u := { regs := [⟨2, a, 2, true, false⟩] } } (fun x s w =>
    if !w.settled then Eff.wait s w
    else
      let mask (L : Nat) : Mask := (w.lane L).vp w.alloc a
      let b0 : Barm := w.barm.getD { ref := none, arrived := 0 }
      let ref : Option Mask := match b0.ref with
        | some m => some m
        | none => (x.lanes.find? (fun L => barmOk w L (mask L))).map mask
      let good := x.lanes.filter (fun L => barmOk w L (mask L) && ref == some (mask L))
      let bad := x.lanes.filter (fun L => !good.contains L)
      let w1 := { w with barm := if good = [] then w.barm else some { ref := ref, arrived := b0.arrived ||| maskOf good } }
      let w2 := w1.checkBarm
      { s := s.publishTo 0 (postedBy w.uid good), w := w2
        traps := bad.map (fun L => (L, ⟨cSYNCMASK, 0, 0⟩))
        park := if good = [] then none else some (if w2.barm.isNone then .nextRun else .barm) }) s

/-! ## FENCE (R217, R218, R286) -/

/-- FENCE of scope c 0, t 1, d 2, k 3, x 4. A narrow fence stays noted on the posted stores that a forced publish may need (R287). -/
def fenceOp (b : Bool) (scope : Nat) (s : State) : Out :=
  issue { b := b, commit := true, tx := false } (fun x s w =>
    let mine := postedBy w.uid x.lanes
    if !w.settled then Eff.wait s w
    else if 3 ≤ scope ∧ !s.canPublish mine then (Eff.wait s w).hold (fun x => x.urgePosted mine)
    else
      let s1 := s.publishTo scope mine
      { s := { s1 with posted := s1.posted.map (fun p => if mine p then { p with fences := setPut p.fences scope } else p) }
        w := w }) s

/-- FENCE.C. -/
def execFenceC (b : Bool) (s : State) : Out := fenceOp b 0 s
/-- FENCE.T. -/
def execFenceT (b : Bool) (s : State) : Out := fenceOp b 1 s
/-- FENCE.D. -/
def execFenceD (b : Bool) (s : State) : Out := fenceOp b 2 s
/-- FENCE.K. -/
def execFenceK (b : Bool) (s : State) : Out := fenceOp b 3 s
/-- FENCE.X. -/
def execFenceX (b : Bool) (s : State) : Out := fenceOp b 4 s

end Sys2Proof.Machine
end

