-- ==== Sys2Proof/Machine/TxOps.lean ====
section
/-! DEFINITION. Transactions: TXB, TXE, TXA, TXS (R219 to R227). -/
namespace Sys2Proof.Machine

open Sys2Proof

/-! ## TXB (R220, R227) -/

/-- The lane opens its next attempt at `pc` in cautious serial mode (R227). -/
def Lane.serialDue (l : Lane) (pc : DWord) : Bool := l.tx.addr == pc && decide (3 ≤ l.tx.contention)

/-- The lane with a transaction opened at `pc` (R220, R221). `txb` is the first instruction of the attempt (R227). -/
def Lane.txOpen (l : Lane) (pc : DWord) (pri : BitVec 3) (serial : Bool) : Lane :=
  let same : Bool := l.tx.addr == pc
  { l with tx := { l.tx with
      state := .active
      aborts := if same then l.tx.aborts else 0
      contention := if same then l.tx.contention else 0
      addr := pc
      sl := serial
      save := some { regs := l.regs, preds := l.preds, xr := l.xr, fflags := l.fflags, stack := l.stack, win := l.win,
                     winPoison := l.winPoison, pri := pri, badRegs := l.badRegs, softRegs := l.softRegs, stackPoison := l.stackPoison }
      rset := []
      wset := []
      rlines := []
      pages := []
      wlines := []
      logged := []
      insns := 1
      serial := serial } }

/-- Posted stores to some lines. -/
def postedAt (ls : List Nat) (p : Posted) : Bool := ls.contains (p.pa / 128)

/-- Takes the lines of the lane's last attempt, in address order, with every posted store to them published (R227 step 3). -/
def State.takeLines (s : State) (u L : Nat) (ls : List Nat) : State :=
  ls.foldl (fun a n => a.modLine n (fun r => { r with lock := some (u, L) })) (s.publish (postedAt ls))

/-- TXB in one lane. A lane due for serial mode takes the permit, or requests it and waits parked; it has the permit while it waits for a line
of its last attempt. -/
def Eff.txbLane (x : Ctx) (f : Eff) (L : Nat) : Eff :=
  let l := f.w.lane L
  if l.serialDue x.pc then
    let me := (f.w.uid, L)
    if f.s.lu.permit = some me ∨ (f.s.lu.permit = none ∧ f.s.lu.permitQ = []) then
      let taken (y : State) : State := { y with lu := { y.lu with permit := some me } }
      match l.tx.lastLines.find? (fun n => f.s.lineHeld f.w.uid L n || !(f.s.line n).hostFree) with
      | some n => f.queue (fun y => (taken y).awaitHome f.w.uid L (128 * n) 128 true)
      | none =>
        if !f.s.canForce (postedAt l.tx.lastLines) then f.hold (fun y => (taken y).urgePosted (postedAt l.tx.lastLines))
        else
          { f with
            s := (taken (f.s.takeLines f.w.uid L l.tx.lastLines)).count f.w.die f.w.core 13 1
            w := f.w.setLane L (l.txOpen x.pc x.e.pri true) }
    else
      { f with
        s := if f.s.lu.permitQ.contains me then f.s
             else { f.s with lu := { f.s.lu with permitQ := f.s.lu.permitQ ++ [me] } }
        stay := f.stay ||| laneBit L }
  else { f with w := f.w.setLane L (l.txOpen x.pc x.e.pri false) }

/-- TXB. -/
def execTxb (b : Bool) (s : State) : Out :=
  issue { b := b, commit := true, tx := false } (fun x s w =>
    let mine := postedBy w.uid x.lanes
    if !w.settled then Eff.wait s w
    else if !s.canPublish mine then (Eff.wait s w).hold (fun y => y.urgePosted mine)
    else ((Eff.idle (s.publish mine) w).lanes x () (fun f u L => (f.txbLane x L, u))).1) s

/-! ## TXE (R225) -/

/-- Applies a write set at the home: granules written whole as one write, so that their poison ends (R208). A store that follows a
narrow fence leaves its record on the line (R287). -/
def State.applyStores (s : State) (w : Warp) (L : Nat) (wset : List Host.Cell) : State :=
  let fin := finalBytes wset
  let put (a : State) (pa : Nat) (bs : List Byte) : State :=
    a.homeWrite (.thread w.uid L) w.die (some w.core) false pa bs
  let s0 := (dedup (fin.map (fun c => c.1 / 128))).foldl (fun a n => a.markNarrow w L n) s
  (dedup (fin.map (fun c => c.1 / 8))).foldl (fun a g =>
    let cs := fin.filter (fun c => c.1 / 8 == g)
    if cs.length = 8 then put a (8 * g) (cs.map (·.2)) else cs.foldl (fun a c => put a c.1 [c.2]) a) s0

/-- The lane after its commit (R225, R227). -/
def Lane.txCommitted (l : Lane) : Lane :=
  { l with tx := { l.tx with
      state := .committed, aborts := 0, contention := 0, cn := l.tx.constrained, save := none, rset := [], wset := [],
      rlines := [], wlines := [], pages := [], logged := [], lastLines := [], serial := false } }

/-- Lines of both sets of a lane, by rising address (R415). -/
def Tx.lines (t : Tx) : List Nat := t.wlines.foldl setPut t.rlines

/-- The lane of a warp's `txe` that has locked a line; `act` are its lanes that commit (R415). -/
def State.txeLock (s : State) (u : Nat) (act : List Nat) (n : Nat) : Option Nat :=
  (s.line n).lock.bind (fun x => if x.1 = u ∧ act.contains x.2 then some x.2 else none)

/-- A lane's commit waits at a line: one it has read cannot be read, or one it has written cannot be written (R415, R422). The lanes of one
`txe` lock their lines together. -/
def State.lineWaits (s : State) (u : Nat) (act : List Nat) (L : Nat) (t : Tx) (n : Nat) : Bool :=
  let o := (s.txeLock u act n).getD L
  (if t.wlines.contains n then s.storeBusy u o n else s.lineHeld u o n || (s.line n).hostHas (128 * n) 128)
    || s.forcedShut n (.thread u L)

/-- The first line at which a lane's commit waits, and whether for a store. -/
def State.commitWait (s : State) (u : Nat) (act : List Nat) (L : Nat) (t : Tx) : Option (Nat × Bool) :=
  (t.lines.find? (fun n => s.lineWaits u act L t n)).map (fun n => (n, t.wlines.contains n))

/-- The lane's reads hold no longer: a value read has changed (R224, R225). -/
def State.readsChanged (s : State) (u L : Nat) (rset : List Host.Cell) : Bool :=
  rset.any (fun c => s.byteFor (.thread u L) c.1 != c.2)

/-- The stores of a committing lane are applied and its locks go (R225). -/
def State.applyCommit (s : State) (w : Warp) (L : Nat) : State :=
  ((s.applyStores w L (w.lane L).tx.wset).releaseTx w.uid L).count w.die w.core 11 1

/-- Locks taken by TXLK go where a serial attempt stands in the way, which holds what it touches to its end, or a forced publish does, whose
stores may lie in a line locked (R227, R287, R415; DEDUCED, log entry 45). -/
def State.yieldLocks (s : State) (u : Nat) (act : List Nat) (L line : Nat) : State :=
  let serial (x : Nat × Nat) : Bool := (s.warp? x.1).any (fun v => (v.lane x.2).tx.serial)
  if (s.line line).lock.any serial ∨ s.forcedShut line (.thread u L) then
    { s with lines := s.lines.map (fun r =>
        if r.lock.any (fun x => x.1 == u && act.contains x.2 && !serial x) then { r with lock := none } else r) }
  else s

/-- The commit of one lane among those that commit in this `txe`; `ws` are the lines that lower lanes of it have written. -/
def Eff.txeLane (f : Eff) (act : List Nat) (ws : List Nat) (L : Nat) : Eff × List Nat :=
  let t := (f.w.lane L).tx
  let u := f.w.uid
  if t.rlines.any (fun n => ws.contains n) then (f.txAbort L cIntra, ws)
  else
    match f.s.commitWait u act L t with
    | some (n, wr) =>
      if (f.s.txeLock u act n).isNone && f.s.siblingLock u L n then
        ({ f with s := f.s.yieldLocks u act L n, locked := f.locked ||| laneBit L }, ws)
      else (f.queue (fun y => (y.yieldLocks u act L n).awaitHome u L (128 * n) 128 wr), ws)
    | none =>
      let s1 := t.lines.foldl (fun a n => a.forced n (.thread u L)) f.s
      if s1.readsChanged u L t.rset then ({ f with s := s1 }.txAbort L cConflict, ws)
      else ({ f with s := s1.applyCommit f.w L, w := f.w.modLane L Lane.txCommitted }, t.wlines.foldl setPut ws)

/-- The warp with no lane at a `txe`. -/
def Warp.txeOver (w : Warp) : Warp :=
  let w1 := { w with atTxe := 0 }
  if w1.anyTx then w1 else { w1 with txLog := 0, txBuf := 0 }

/-- TXE: the ACTIVE active lanes commit in ascending order; other lanes of the warp that had read what was written abort with
INTRAWARP (R224, R225), a lower lane that waits at this `txe` for a line of its own warp among them. While it waits, TXLK and TXWR act for its
lanes. DEDUCED, log entry 45. -/
def execTxe (b : Bool) (s : State) : Out :=
  issue { b := b } (fun x s w =>
    let act := x.lanes.filter (fun L => (w.lane L).txActive)
    if act = [] then Eff.idle s w.txeOver
    else if !w.settled then Eff.wait s w
    else
      let r := act.foldl (fun (fw : Eff × List Nat) L => if fw.1.stall then fw else fw.1.txeLane act fw.2 L) (Eff.idle s w, [])
      let f := r.1
      if f.stall then
        f.queue (fun y => (f.urge y).modWarp w.uid (fun v => { v with atTxe := maskOf act }))
      else
        let hit := (List.range f.w.width).filter (fun L => (f.w.lane L).txActive
          && (f.w.lane L).tx.rlines.any (fun n => r.2.contains n))
        let y := abortLanes f.s f.w (hit.map (fun L => (L, cIntra)))
        { f with s := y.1, w := y.2.txeOver, gone := f.gone ||| maskOf (hit.filter act.contains)
                 locked := f.locked &&& ~~~(maskOf hit) }) s

/-- The lanes at a `txe` that waits, ascending (R225). -/
def Warp.txeLanes (w : Warp) : List Nat := (lanesOf w.atTxe).filter (fun L => (w.lane L).txActive)

/-- A lane commits at a TXWR: its reads are checked once more, then what it wrote is in memory at once, and other lanes of its warp that had
read it abort (R224, R225). -/
def State.commitLane (s : State) (u L : Nat) : State :=
  match s.warp? u with
  | none => s
  | some w =>
    let t := (w.lane L).tx
    if !(w.lane L).txActive then s
    else
      let s0 := t.lines.foldl (fun a n => a.forced n (.thread u L)) s
      if s0.readsChanged u L t.rset then s0.abortTx u L cConflict
      else
        let s1 := ((List.range w.width).filter (fun M => M != L && (w.lane M).txActive
          && (w.lane M).tx.rlines.any (fun n => t.wlines.contains n))).foldl (fun a M => a.abortTx u M cIntra) s0
        (s1.modWarp u (fun x => (x.modLane L Lane.txCommitted).offTxe L)).applyCommit w L

/-! ## TXA, TXS (R226) -/

/-- TXA. -/
def execTxa (a : VReg) (b : Bool) (s : State) : Out :=
  issue { b := b, u := { regs := [⟨2, a, 1, true, false⟩] } } (fun x s w =>
    (x.lanes.filter (fun L => (w.lane L).txActive)).foldl (fun f L =>
      let code := ((f.w.lane L).v w.alloc a).extractLsb' 0 8
      { f with
        s := (f.s.releaseTx w.uid L).count w.die w.core 12 1
        w := f.w.abortLane L cExplicit (some code)
        gone := f.gone ||| laneBit L }) (Eff.idle s w)) s

/-- TXS. -/
def execTxs (d : PReg) (b : Bool) (s : State) : Out :=
  issue { b := b, u := { pd := [d] } } (fun x s w => Eff.perLane x s w (fun _ l =>
    .ok (l.setPred d (l.tx.state == .active || l.tx.state == .committed)))) s

end Sys2Proof.Machine
end

