-- ==== Sys2Proof/Machine/Copy.lean ====
section
/-! DEFINITION. Issue of bulk copies (R233 to R241, R255, R256) and the tag instructions (R229 to R232). -/
namespace Sys2Proof.Machine

open Sys2Proof

/-! ## Element formats (R234) -/

/-- Bits of an element in memory; 0 for an unassigned FMT. -/
def fmtBits : Nat → Nat
  | 1 => 4 | 2 => 8 | 3 => 4 | 4 => 6 | 5 => 6 | 6 => 8 | 7 => 8 | _ => 0

/-- Expanded width w (R112). -/
def fmtWidth : Nat → Nat
  | 1 => 4 | 2 => 8 | 3 => 5 | 4 => 7 | 5 => 8 | 6 => 8 | 7 => 8 | _ => 0

/-! ## Control blocks (R233 to R237, R253) -/

/-- Bits hi:lo of word i of a control block. -/
def cbF (cb : List Word) (i hi lo : Nat) : Nat := bits (cb.getD i 0).toNat hi lo

/-- GA: the global address in words i and i + 1. -/
def cbAddr (cb : List Word) (i : Nat) : Nat := cbF cb i 31 0 + cbF cb (i + 1) 22 0 * 2 ^ 32

/-- LA of REM (R237). -/
def remLA (cb : List Word) : Nat := (cbF cb 0 31 0 + cbF cb 1 15 0 * 2 ^ 32) * 128

/-- RA of REM (R237). -/
def remRA (cb : List Word) : Nat := (cbF cb 1 31 16 + cbF cb 2 31 0 * 2 ^ 16) * 128

/-- Carried out by an MDRAIN form. -/
def CopyFn.isDrain : CopyFn → Bool
  | .drain | .drainAddF32 | .drainAddI32 | .drainAddI64 => true
  | _ => false

/-- Bytes of a destination element of an MDRAIN form (R253). -/
def CopyFn.drainBytes (f : CopyFn) : Nat := if f = .drainAddI64 then 8 else 4

/-- FMT of a function that carries one. -/
def cbFmt (fn : CopyFn) (cb : List Word) : Nat := if fn = .q2g then cbF cb 3 22 19 else cbF cb 3 9 6

/-- KB. -/
def cbKb (cb : List Word) : Nat := cbF cb 3 5 0 + 1
/-- N of G2AX; of Q2G and the MDRAIN forms. -/
def cbN (fn : CopyFn) (cb : List Word) : Nat := if fn = .g2ax then cbF cb 3 20 12 + 1 else cbF cb 3 18 9 + 1
/-- ROWS of a function that has rows. -/
def cbRows (fn : CopyFn) (cb : List Word) : Nat :=
  match fn with
  | .g2a | .a2g => cbF cb 2 31 20 + 1
  | .g2ax => 48 * cbKb cb
  | .g2rx => cbF cb 2 17 9 + 1
  | .q2g | .drain | .drainAddF32 | .drainAddI32 | .drainAddI64 => cbF cb 3 8 0 + 1
  | .g2g | .rem | .scld => 1

/-- Packed length in bytes of a row of the global side. -/
def cbRowBytes (fn : CopyFn) (cb : List Word) : Nat :=
  match fn with
  | .g2a | .a2g => 32 * (cbF cb 3 9 0 + 1)
  | .g2ax | .q2g => cbN fn cb * fmtBits (cbFmt fn cb) / 8
  | .g2rx => 48 * cbKb cb * fmtBits (cbFmt fn cb) / 8
  | .g2g => 128 * (cbF cb 3 31 23 + 1)
  | .rem => 128 * (cbF cb 3 31 22 + 1)
  | .scld => cbF cb 3 12 0 + 1
  | .drain | .drainAddF32 | .drainAddI32 | .drainAddI64 => cbN fn cb * fn.drainBytes

/-- P: distance of rows of the global side (R233). -/
def cbPitch (fn : CopyFn) (cb : List Word) : Nat :=
  let p := cbF cb 1 31 23
  if fn = .g2g ∨ fn = .rem ∨ p = 0 then cbRowBytes fn cb else 128 * p

/-- M0 and N0 of Q2G and the MDRAIN forms; N0 of G2AX. -/
def cbM0 (cb : List Word) : Nat := cbF cb 2 8 0
/-- First column. -/
def cbN0 (fn : CopyFn) (cb : List Word) : Nat := if fn = .g2ax then cbF cb 2 15 6 else cbF cb 2 18 9

/-- NOSC (R238). -/
def cbNosc (fn : CopyFn) (cb : List Word) : Bool := (if fn = .g2ax then cbF cb 2 16 16 else cbF cb 2 18 18) == 1
/-- MX of an expanding copy. -/
def cbMx (cb : List Word) : Bool := cbF cb 3 10 10 == 1
/-- GRP. -/
def cbGrp (cb : List Word) : Bool := cbF cb 3 11 11 == 1

/-- Block size of Q2G (R241). -/
def q2gBlock (cb : List Word) : Nat := if cbF cb 3 23 23 = 1 then 32 else 48

/-- Scale bytes an expanding copy uses (R238). -/
def cbScales (fn : CopyFn) (cb : List Word) : Nat :=
  if cbNosc fn cb then 0
  else (if fn = .g2ax then cbN fn cb else cbRows fn cb) * (if cbMx cb then 48 * cbKb cb / 32 else cbKb cb)

/-- Bytes of an A row in the row buffer: RP (R240). -/
def rowBytes (w kb : Nat) : Nat := 6 * w * kb

/-- A malformed expanding copy (R234, R238). -/
def badExpand (fn : CopyFn) (cb : List Word) : Bool :=
  let f := cbFmt fn cb
  fmtBits f == 0 || (cbMx cb && cbKb cb % 2 == 1) || (cbNosc fn cb && decide (2 < f))
    || (cbGrp cb && (cbKb cb % 8 != 0 || (fn == .g2ax && cbF cb 2 5 0 % 8 != 0)))

/-- A non-zero PITCH is smaller than the packed row (R233). -/
def badPitch (fn : CopyFn) (cb : List Word) : Bool := cbF cb 1 31 23 != 0 && decide (128 * cbF cb 1 31 23 < cbRowBytes fn cb)

/-- A reserved bit, an unassigned code or a malformed shape: ILLEGAL (R255, R257, R253). -/
def cbIllegal (fn : CopyFn) (cb : List Word) : Bool :=
  match fn with
  | .g2a | .a2g => cbF cb 3 31 10 != 0 || badPitch fn cb
  | .g2ax => cbF cb 2 31 17 != 0 || cbF cb 3 31 21 != 0 || badExpand fn cb
      || cbN fn cb * fmtBits (cbFmt fn cb) % 8 != 0 || badPitch fn cb
  | .g2rx => cbF cb 2 31 19 != 0 || badExpand fn cb || badPitch fn cb
  | .q2g =>
    let f := cbFmt fn cb
    cbF cb 2 31 19 != 0 || cbF cb 3 31 25 != 0 || decide (f < 2) || decide (7 < f) || cbN fn cb % q2gBlock cb != 0
      || badPitch fn cb
  | .g2g => cbF cb 1 31 23 != 0
  | .rem => decide (3 ≤ cbF cb 3 21 19)
  | .scld => cbF cb 1 31 23 != 0 || cbF cb 2 31 13 != 0 || cbF cb 3 31 13 != 0
  | .drain | .drainAddF32 | .drainAddI32 | .drainAddI64 => cbF cb 2 31 19 != 0 || cbF cb 3 31 19 != 0 || badPitch fn cb

/-- The address that raises MISALIGN, if one does (R253, R255). -/
def cbMisaligned (fn : CopyFn) (cb : List Word) : Option Nat :=
  let ga := cbAddr cb 0
  let un (a n : Nat) : Option Nat := if a % n = 0 then none else some a
  match fn with
  | .g2a | .a2g => (un ga 16).or (un (cbF cb 2 19 0) 32)
  | .g2g => (un ga 128).or (un (cbAddr cb 2) 128)
  | .rem => none
  | .drain | .drainAddF32 | .drainAddI32 | .drainAddI64 => un ga fn.drainBytes
  | _ => un ga 16

/-! ## Local ranges -/

/-- Columns of a team's accumulator (R242). -/
def Team.accCols (t : Team) : Nat := if t.twin then 640 else 320

/-- Core of a matrix column, and the column in that core (R239). -/
def Team.column (t : Team) (c : Nat) : Nat × Nat := if c < 320 then (t.core, c) else (t.core + 1, c - 320)

/-- An element column of width w lies in the array of the team (R239). -/
def Team.columnOk (t : Team) (w c : Nat) : Bool :=
  decide ((t.column c).2 < 1280 / w) && (decide (c < 320) || (t.twin && decide (c < 640)))

/-- Macros that hold segments seg0 to seg0 + kb - 1 of element columns n0 to n0 + n - 1, by core and index (R311, R314). -/
def Team.tileMacros (t : Team) (seg0 kb n0 n w : Nat) : List (Nat × Nat) :=
  let kqs := dedup ((List.range kb).map (fun i => (seg0 + i) / 8))
  let cols := (List.range n).map (fun i => t.column (n0 + i))
  let near (k : Nat) : List (Nat × Nat) :=
    let nqs := dedup ((cols.filter (fun x => x.1 == k)).flatMap (fun x => [x.2 * w / 256, (x.2 * w + w - 1) / 256]))
    kqs.flatMap (fun kq => nqs.map (fun nq => (k, 5 * kq + nq)))
  t.cores.flatMap near

/-- A tile of B lies outside the array or the allocation (R239, R250). -/
def Team.badTile (t : Team) (seg0 kb n0 n w : Nat) : Bool :=
  decide (64 < seg0 + kb) || (List.range n).any (fun i => !t.columnOk w (n0 + i))
    || (t.tileMacros seg0 kb n0 n w).any (fun x => decide (t.units ≤ x.2))

/-- A local range of a copy or drain lies outside its memory: PROT (R255, R253). -/
def Team.cbOutside (t : Team) (fn : CopyFn) (cb : List Word) : Bool :=
  match fn with
  | .g2a | .a2g => decide (t.arrayBytes < cbF cb 2 19 0 + cbRows fn cb * cbRowBytes fn cb)
  | .g2ax => t.badTile (cbF cb 2 5 0) (cbKb cb) (cbN0 fn cb) (cbN fn cb) (fmtWidth (cbFmt fn cb))
      || decide (8192 < cbScales fn cb)
  | .g2rx => decide (384 < cbM0 cb + cbRows fn cb) || decide (8192 < cbScales fn cb)
      || decide (65536 < 4096 * cbF cb 3 15 12 + (cbM0 cb + cbRows fn cb) * rowBytes (fmtWidth (cbFmt fn cb)) (cbKb cb))
  | .g2g | .rem => false
  | .scld => decide (8192 < cbF cb 2 12 0 + cbRowBytes fn cb)
  | .q2g | .drain | .drainAddF32 | .drainAddI32 | .drainAddI64 =>
    decide (384 < cbM0 cb + cbRows fn cb) || decide (t.accCols < cbN0 fn cb + cbN fn cb)

/-! ## Ownership (R243) -/

/-- The warp's team is the matrix team of its core, and its kernel has matrix ownership. -/
def State.ownsMatrix (s : State) (w : Warp) : Bool :=
  (s.recOf w.gk).mat && (s.core w.die w.core).mat == some (w.gk, (w.lane 0).team.toNat)

/-- Ownership check of a matrix instruction, and of the four copies that ask for it: DETACHED or MATX. `leader` asks for the
leader core. -/
def State.matrixCheck (s : State) (w : Warp) (leader : Bool) : Option Nat :=
  if w.gathered then some cDETACHED
  else if !s.ownsMatrix w then some cMATX
  else
    match s.team? w.gk (w.lane 0).team.toNat with
    | none => some cMATX
    | some t => if leader && t.core != w.core then some cMATX else none

/-- The team a copy acts for: the warp's, or in a gathered warp that of the lowest active lane (R243). -/
def State.copyTeam (s : State) (x : Ctx) (w : Warp) : Option Team :=
  s.team? w.gk (w.lane (if w.gathered then lowestLane x.mask else 0)).team.toNat

/-! ## Starting a copy -/

/-- Issued now, a copy to the team's array would complete ARRMODE: a macro it names is in compute residence, or MMODE.C has
completed and waits for earlier copies (R246, R291). -/
def State.arrayRefused (s : State) (t : Team) (fn : CopyFn) (cb : List Word) : Bool :=
  let hit : List (Nat × Nat) := match fn with
    | .g2a =>
      let a := cbF cb 2 19 0
      let n := cbRows fn cb * cbRowBytes fn cb
      (List.range ((a + n + 12287) / 12288 - a / 12288)).map (fun i =>
        let pl := t.arrayPlace ((a / 12288 + i) * 12288)
        (pl.1, pl.2.1))
    | .g2ax => t.tileMacros (cbF cb 2 5 0) (cbKb cb) (cbN0 fn cb) (cbN fn cb) (fmtWidth (cbFmt fn cb))
    | _ => []
  match t.mode with
  | .cWait _ | .cStart => !hit.isEmpty
  | _ => hit.any (fun x => (((s.core t.die x.1).units.getD x.2 CimUnit.init).mode == .compute))

/-- A tag becomes BUSY (R229). -/
def Warp.tagStart (w : Warp) (t : Nat) : Warp := { w with tags := w.tags.set t .busy }

/-- Appends a copy to the engine of the warp's core. Speculative, it is pending (R256); else earlier accesses have performed, and the
posted stores of the active lanes are visible to it (R288, DEDUCED, log entry 11). -/
def State.startCopy (s : State) (x : Ctx) (w : Warp) (t : Team) (fn : CopyFn) (cb : List Word) (tag : Nat) : Eff :=
  let mine := postedBy w.uid x.lanes
  if !w.spec && !w.settled then Eff.wait s w
  else if !w.spec && !s.canPublish mine then (Eff.wait s w).hold (fun y => y.urgePosted mine)
  else
  let (u, s0) := s.fresh
  let s1 := if w.spec then s0 else s0.publish mine
  let c : Copy :=
    { uid := u, die := w.die, core := w.core, w := w.uid, tag := tag, gk := w.gk, team := t.idx, fn := fn, cb := cb,
      pending := w.spec, refused := !w.spec && s1.arrayRefused t fn cb, owned := [], taken := 0, bytes := 0, out := [], failed := false,
      waits := none, confirmed := 0, remote := none }
  let s2 := s1.modCore w.die w.core (fun k => { k with copies := k.copies ++ [c] })
  let w1 := w.tagStart tag
  Eff.idle s2 { w1 with window := w1.window.map (fun v => { v with copies := v.copies ++ [(v.seq, u)] }) }

/-- The four scalar registers from s[a]. -/
def Warp.group (w : Warp) (a : SReg) : List Word := (List.range 4).map (fun i => w.sv (a.val + i))

/-- The scalar registers an SG field names. -/
def useGroup (a : SReg) : List Nat := (List.range 4).map (· + a.val)

/-- BCP (R255): its checks in order, then a place in the engine of 64 copies (R231). DEDUCED, log entry 26. -/
def bcpOp (b : Bool) (fn : CopyFn) (a : SReg) (tag : Tag) (s : State) : Out :=
  issue { b := b, tx := false, u := { ss := useGroup a } } (fun x s w =>
    let cb := w.group a
    let mx : Bool := fn == .g2ax || fn == .g2rx || fn == .scld || fn == .q2g
    match (if mx then s.matrixCheck w false else none) with
    | some c => Eff.trapAll x s w c 0
    | none =>
      if cbIllegal fn cb then Eff.trapAll x s w cILLEGAL 0
      else
        match cbMisaligned fn cb with
        | some ad => Eff.trapAll x s w cMISALIGN 0 (BitVec.ofNat 64 ad)
        | none =>
          match s.copyTeam x w with
          | none => Eff.trapAll x s w cPROT 0
          | some t =>
            if t.cbOutside fn cb then Eff.trapAll x s w cPROT 0
            else if w.tags.getD tag.val .free = .busy then Eff.trapAll x s w cTAGBUSY tag.val
            else if 64 ≤ (s.core w.die w.core).copies.length then Eff.wait s w
            else s.startCopy x w t fn cb tag.val) s

/-- BCP G2A: global to array. -/
def execBcpG2a (a : SReg) (t : Tag) (b : Bool) (s : State) : Out := bcpOp b .g2a a t s
/-- BCP G2AX: global to array, expanded. -/
def execBcpG2ax (a : SReg) (t : Tag) (b : Bool) (s : State) : Out := bcpOp b .g2ax a t s
/-- BCP G2RX: global to row buffers, expanded, multicast. -/
def execBcpG2rx (a : SReg) (t : Tag) (b : Bool) (s : State) : Out := bcpOp b .g2rx a t s
/-- BCP A2G: array to global. -/
def execBcpA2g (a : SReg) (t : Tag) (b : Bool) (s : State) : Out := bcpOp b .a2g a t s
/-- BCP Q2G: accumulator to global, quantised. -/
def execBcpQ2g (a : SReg) (t : Tag) (b : Bool) (s : State) : Out := bcpOp b .q2g a t s
/-- BCP G2G: global to global. -/
def execBcpG2g (a : SReg) (t : Tag) (b : Bool) (s : State) : Out := bcpOp b .g2g a t s
/-- BCP REM: local device to or from a remote one. -/
def execBcpRem (a : SReg) (t : Tag) (b : Bool) (s : State) : Out := bcpOp b .rem a t s
/-- BCP SCLD: global to the staging area. -/
def execBcpScld (a : SReg) (t : Tag) (b : Bool) (s : State) : Out := bcpOp b .scld a t s

/-! ## Tags (R229 to R232) -/

/-- tagrdy: the tags that are DONE (R21, R229). -/
def Warp.tagRdy (w : Warp) : Mask :=
  maskOf ((List.range 64).filter (fun t => match w.tags.getD t .free with | .done _ _ _ => true | _ => false))

/-- tagerr: the DONE tags whose status is not OK (R21, R229). -/
def Warp.tagErr (w : Warp) : Mask :=
  maskOf ((List.range 64).filter (fun t => match w.tags.getD t .free with | .done st _ _ => st != 0 | _ => false))

/-- The two words of a tag's status (R230). -/
def TagSt.words : TagSt → Word × Word
  | .done st bytes _ => (BitVec.ofNat 32 st, bytes)
  | _ => (0, 0)

/-- The pair an A field names, as read registers. -/
def usePair (a : SReg) : List Nat := [a.val, a.val + 1]

/-- TWAIT and TWANY: the run ends, and the warp parks unless its tags are ready (R232). -/
def twaitOp (b any : Bool) (a : SReg) (s : State) : Out :=
  issue { b := b, tx := false, cyc := (1, 1, 1), u := { ss := usePair a } } (fun _ s w =>
    let m := w.sp a.val
    let w1 := if tagsReady w.tags m any then w else { w with wait := some (if any then .twany m else .twait m) }
    { s := s, w := w1, endRun := true }) s

/-- TWAIT. -/
def execTwait (a : SReg) (b : Bool) (s : State) : Out := twaitOp b false a s
/-- TWANY. -/
def execTwany (a : SReg) (b : Bool) (s : State) : Out := twaitOp b true a s

/-- TFIRST. -/
def execTfirst (d a : SReg) (b : Bool) (s : State) : Out :=
  issue { b := b, tx := false, cyc := (1, 1, 1), u := { ss := usePair a, sd := [d.val] } } (fun _ s w =>
    let m := w.sp a.val &&& w.tagRdy
    Eff.idle s (w.setS d.val (if m = 0 then 0xFFFFFFFF else BitVec.ofNat 32 (lowestLane m)))) s

/-- TCLR. -/
def execTclr (a : SReg) (b : Bool) (s : State) : Out :=
  issue { b := b, tx := false, commit := true, cyc := (1, 1, 1), u := { ss := usePair a } } (fun _ s w =>
    let m := w.sp a.val
    Eff.idle s { w with tags := w.tags.mapIdx (fun i x =>
      if m.getLsbD i then (match x with | .done _ _ _ => .free | y => y) else x) }) s

/-- TSTAT. -/
def execTstat (d : SReg) (t : Tag) (b : Bool) (s : State) : Out :=
  issue { b := b, tx := false, cyc := (1, 1, 1), u := { sd := [d.val, d.val + 1], var := true } } (fun x s w =>
    let st := w.tags.getD t.val .free
    if st = .busy then Eff.trapAll x s w cTAGBUSY t.val
    else Eff.idle s ((w.setS d.val st.words.1).setS (d.val + 1) st.words.2)) s

end Sys2Proof.Machine
end

