-- ==== Sys2Proof/Machine/Matrix.lean ====
section
/-! DEFINITION. Issue of MMODE and MCAL (R245), of MMUL (R249, R250) and of the MACC functions (R253), and the order of matrix
operations and copies (R244). -/
namespace Sys2Proof.Machine

open Sys2Proof

/-! ## What orders operations (R244) -/

/-- A range of a matrix memory or of array memory of a core that an operation reads or writes: core 96 d + k; class 0 array by
macro, 1 row buffer by byte, 2 EA by row, 3 EB by segment, 4 accumulator by row, 5 staging area. -/
structure Zone where
  core : Nat
  cls : Nat
  lo : Nat
  hi : Nat
  wr : Bool
deriving DecidableEq, Repr

/-- Two accesses must keep their order. DEDUCED, log entry 23. -/
def Zone.clash (x y : Zone) : Bool :=
  x.core == y.core && x.cls == y.cls && (x.wr || y.wr) && decide (x.lo < y.hi) && decide (y.lo < x.hi)

/-- Cores a G2RX names (R240). -/
def g2rxCores (c : Copy) : List Nat :=
  let m := cbF c.cb 3 31 16
  if m = 0 then [c.core] else ((List.range 16).filter (fun j => m.testBit j)).map (fun j => c.core / 16 * 16 + j)

/-- Cores of columns n0 to n0 + n - 1. -/
def Team.colCores (t : Team) (n0 n : Nat) : List Nat := dedup ((List.range n).map (fun i => (t.column (n0 + i)).1))

/-- Ranges of a copy. -/
def Copy.zones (c : Copy) (t : Team) : List Zone :=
  let z (k cls lo n : Nat) (wr : Bool) : Zone := ⟨96 * c.die + k, cls, lo, lo + n, wr⟩
  let scales : List Zone := if cbNosc c.fn c.cb then [] else [z c.core 5 0 1 false]
  match c.fn with
  | .g2a | .a2g =>
    let a := cbF c.cb 2 19 0
    let n := cbRows c.fn c.cb * cbRowBytes c.fn c.cb
    (List.range ((a + n + 12287) / 12288 - a / 12288)).map (fun i =>
      let pl := t.arrayPlace ((a / 12288 + i) * 12288)
      z pl.1 0 pl.2.1 1 (c.fn == .g2a))
  | .g2ax =>
    let w := fmtWidth (cbFmt c.fn c.cb)
    let n0 := cbN0 c.fn c.cb
    let n := cbN c.fn c.cb
    (t.tileMacros (cbF c.cb 2 5 0) (cbKb c.cb) n0 n w).map (fun x => z x.1 0 x.2 1 true)
      ++ (t.colCores n0 n).map (fun k => z k 3 (cbF c.cb 2 5 0) (cbKb c.cb) true) ++ scales
  | .g2rx =>
    let rp := rowBytes (fmtWidth (cbFmt c.fn c.cb)) (cbKb c.cb)
    (g2rxCores c).flatMap (fun k =>
      [z k 1 (4096 * cbF c.cb 3 15 12 + cbM0 c.cb * rp) (cbRows c.fn c.cb * rp) true,
       z k 2 (cbM0 c.cb) (cbRows c.fn c.cb) true]) ++ scales
  | .q2g | .drain | .drainAddF32 | .drainAddI32 | .drainAddI64 =>
    (t.colCores (cbN0 c.fn c.cb) (cbN c.fn c.cb)).map (fun k => z k 4 (cbM0 c.cb) (cbRows c.fn c.cb) false)
  | .scld => [z c.core 5 0 1 true]
  | .g2g | .rem => []

/-- Ranges of an MMUL. -/
def MOp.zones (o : MOp) (t : Team) : List Zone :=
  let z (k cls lo n : Nat) (wr : Bool) : Zone := ⟨96 * t.die + k, cls, lo, lo + n, wr⟩
  let rp := rowBytes (fmtWidth o.afmt) o.kb
  [z t.core 1 (4096 * o.rbase + o.ma0 * rp) (o.m * rp) false, z t.core 2 o.ma0 o.m false]
    ++ (t.tileMacros o.seg0 o.kb o.n0 o.n (fmtWidth o.bfmt)).map (fun x => z x.1 0 x.2 1 false)
    ++ (t.colCores o.n0 o.n).flatMap (fun k => [z k 3 o.seg0 o.kb false, z k 4 o.mc0 o.m true])

/-- Some operation issued before number `u` and not finished must go before an operation with these ranges (R244). A pending
copy whose warp has not committed has not issued (R256). -/
def State.blocked (s : State) (u : Nat) (zs : List Zone) : Bool :=
  let hits (ys : List Zone) : Bool := ys.any (fun y => zs.any (fun z => z.clash y))
  s.cores.any (fun k =>
    k.copies.any (fun c => decide (c.uid < u) && (!c.pending || c.issued) &&
      (match s.team? c.gk c.team with | some t => hits (c.zones t) | none => false))
    || (k.mq ++ k.run.toList).any (fun o => decide (o.uid < u) &&
      (match s.team? o.gk o.team with | some t => hits (o.zones t) | none => false)))

/-- Entries in use of a core's matrix queue: MMULs and MDRAIN forms (R244, R253). -/
def Core.queueUsed (c : Core) : Nat := c.mq.length + c.run.toList.length + (c.copies.filter (fun x => x.fn.isDrain)).length

/-! ## MMODE and MCAL (R245) -/

/-- An arrival at the team's mode instance. -/
def modeOp (b : Bool) (fn : ModeFn) (s : State) : Out :=
  issue { b := b, commit := true, tx := false, noHandler := true } (fun x s w =>
    let idx := (w.lane 0).team.toNat
    if w.gathered then Eff.trapAll x s w cDETACHED 0
    else if !s.ownsMatrix w then Eff.trapAll x s w cMATX 0
    else if !w.settled then Eff.wait s w
    else
      let arr : Option (List (Nat × ModeFn × Mask × DWord × BitVec 3 × Word)) := match s.team? w.gk idx with
        | none => none
        | some t => match t.mode with
          | .idle => some []
          | .gathering l => some l
          | _ => none
      match arr with
      | none => Eff.wait s w
      | some l =>
        let l1 := l ++ [(w.uid, fn, x.mask, x.pc, x.e.pri, s.insn)]
        let r := (s.modTeam w.gk idx (fun t => { t with mode := .gathering l1 })).checkAfter w
        let done : Bool := match r.1.team? w.gk idx with | some t => t.mode == .idle | none => false
        { s := r.1, w := r.2, park := some (if done then .nextRun else .mode)
          gone := x.mask &&& r.2.heldTraps.foldl (fun m t => m ||| t.mask) 0 }) s

/-- MMODE.C. -/
def execMmodeC (b : Bool) (s : State) : Out := modeOp b .c s
/-- MMODE.S. -/
def execMmodeS (b : Bool) (s : State) : Out := modeOp b .s s
/-- MCAL. -/
def execMcal (b : Bool) (s : State) : Out := modeOp b .cal s

/-! ## MMUL (R249, R250) -/

/-- The operation that the two groups of an MMUL describe (R249). -/
def mopOf (uid w gk team rep : Nat) (acc : Bool) (ga gc : List Word) : MOp :=
  { uid := uid, w := w, tag := cbF ga 3 5 0, gk := gk, team := team, rep := rep, acc := acc,
    n0 := cbF ga 0 15 6, seg0 := cbF ga 0 5 0, rbase := cbF ga 1 12 9, ma0 := cbF ga 1 8 0, mc0 := cbF ga 2 8 0,
    m := cbF gc 0 8 0 + 1, kb := cbF gc 1 5 0 + 1, n := cbF gc 2 9 0 + 1, bfmt := cbF gc 3 7 4, afmt := cbF gc 3 3 0,
    steps := 0, retries := 0, fails := [], pois := false }

/-- Order 2 of R250. -/
def mmulIllegal (o : MOp) (ga gc : List Word) : Bool :=
  cbF ga 0 31 16 != 0 || cbF ga 1 31 13 != 0 || cbF ga 2 31 9 != 0 || cbF ga 3 31 6 != 0 || cbF gc 0 31 9 != 0
    || cbF gc 1 31 6 != 0 || cbF gc 2 31 10 != 0 || cbF gc 3 31 8 != 0 || fmtBits o.afmt == 0 || fmtBits o.bfmt == 0
    || (o.rep != 0 && (o.seg0 % 8 != 0 || o.kb % 8 != 0))

/-- Order 3 of R250. -/
def MOp.outside (o : MOp) (t : Team) : Bool :=
  decide (384 < o.ma0 + o.m) || decide (384 < o.mc0 + o.m) || t.badTile o.seg0 o.kb o.n0 o.n (fmtWidth o.bfmt)
    || decide (65536 < 4096 * o.rbase + (o.ma0 + o.m) * rowBytes (fmtWidth o.afmt) o.kb)

/-- MMUL with `rep` 0 for EX, 1, 2, 4 for the AP modes. -/
def mmulOp (b : Bool) (rep : Nat) (acc : Bool) (a c : SReg) (s : State) : Out :=
  issue { b := b, commit := true, tx := false, u := { ss := useGroup a ++ useGroup c } } (fun x s w =>
    match s.matrixCheck w true with
    | some e => Eff.trapAll x s w e 0
    | none =>
      let (u, s1) := s.fresh
      let idx := (w.lane 0).team.toNat
      let o := mopOf u w.uid w.gk idx rep acc (w.group a) (w.group c)
      if mmulIllegal o (w.group a) (w.group c) then Eff.trapAll x s w cILLEGAL 0
      else
        match s.team? w.gk idx with
        | none => Eff.trapAll x s w cMATX 0
        | some t =>
          if o.outside t then Eff.trapAll x s w cPROT 0
          else if (t.tileMacros o.seg0 o.kb o.n0 o.n (fmtWidth o.bfmt)).any (fun y =>
              ((s.core t.die y.1).units.getD y.2 CimUnit.init).mode != .compute) then Eff.trapAll x s w cARRMODE 0
          else if w.tags.getD o.tag .free = .busy then Eff.trapAll x s w cTAGBUSY o.tag
          else if 8 ≤ (s.core w.die w.core).queueUsed then Eff.wait s w
          else Eff.idle (s1.modCore w.die w.core (fun k => { k with mq := k.mq ++ [o] })) (w.tagStart o.tag)) s

/-- MMUL.EX. -/
def execMmulEx (acc : Bool) (a c : SReg) (b : Bool) (s : State) : Out := mmulOp b 0 acc a c s
/-- MMUL.AP1. -/
def execMmulAp1 (acc : Bool) (a c : SReg) (b : Bool) (s : State) : Out := mmulOp b 1 acc a c s
/-- MMUL.AP2. -/
def execMmulAp2 (acc : Bool) (a c : SReg) (b : Bool) (s : State) : Out := mmulOp b 2 acc a c s
/-- MMUL.AP4. -/
def execMmulAp4 (acc : Bool) (a c : SReg) (b : Bool) (s : State) : Out := mmulOp b 4 acc a c s

/-! ## The accumulator (R242, R253) -/

/-- Byte of local element (m, n) of accumulator memory (R242). -/
def accAt (m n : Nat) : Nat := 4 * (m * 320 + n)

/-- Writes an element; the poison of its granule ends, but for an accumulating MMUL's (R441). DEDUCED, log entry 27. -/
def Core.setAcc (c : Core) (m n : Nat) (v : Word) (keep : Bool := false) : Core :=
  let r := c.acc.writes (accAt m n) (toBytes 4 v.toNat)
  { c with acc := { r with poison := if keep then c.acc.poison else setDel r.poison (accAt m n / 8) } }

/-- Element (m, n) of a team's accumulator. -/
def State.accVal (s : State) (t : Team) (m n : Nat) : Nat :=
  let k := t.column n
  (s.core t.die k.1).acc.val (accAt m k.2) 4

/-- Element (m, n) is poisoned. -/
def State.accBad (s : State) (t : Team) (m n : Nat) : Bool :=
  let k := t.column n
  (s.core t.die k.1).acc.poison.contains (accAt m k.2 / 8)

/-- Writes element (m, n) of a team's accumulator. -/
def State.setAcc (s : State) (t : Team) (m n : Nat) (v : Word) (keep : Bool := false) : State :=
  let k := t.column n
  s.modCore t.die k.1 (fun c => c.setAcc m k.2 v keep)

/-- Ranges of accumulator rows of a team. -/
def Team.accZones (t : Team) (m n : Nat) (wr : Bool) : List Zone :=
  t.cores.map (fun k => ⟨96 * t.die + k, 4, m, m + n, wr⟩)

/-- The common checks of MACC: ownership, then the team (R243, R253). -/
def maccOp (k : Kind) (body : Ctx → State → Warp → Team → Eff) (s : State) : Out :=
  issue { k with commit := true, tx := false } (fun x s w =>
    match s.matrixCheck w true with
    | some e => Eff.trapAll x s w e 0
    | none =>
      match s.team? w.gk (w.lane 0).team.toNat with
      | none => Eff.trapAll x s w cMATX 0
      | some t => body x s w t) s

/-- MZERO: at the place in the queue that R244 gives it, once every earlier operation on the rows has finished.
DEDUCED, log entry 24. -/
def execMzero (a : SReg) (b : Bool) (s : State) : Out :=
  maccOp { b := b, u := { ss := useGroup a } } (fun x s w t =>
    let cb := w.group a
    if cbF cb 2 31 19 ≠ 0 ∨ cbF cb 3 31 19 ≠ 0 then Eff.trapAll x s w cILLEGAL 0
    else if t.cbOutside .drain cb then Eff.trapAll x s w cPROT 0
    else if 8 ≤ (s.core w.die w.core).queueUsed ∨ s.blocked s.nextUid (t.accZones (cbM0 cb) (cbRows .drain cb) true) then
      Eff.wait s w
    else
      Eff.idle ((List.range (cbRows .drain cb)).foldl (fun s1 r => (List.range (cbN .drain cb)).foldl (fun s2 n =>
        s2.setAcc t (cbM0 cb + r) (cbN0 .drain cb + n) 0) s1) s) w) s

/-- The element of lane L that MRD and MWR name, if it is in the team's accumulator (R253). -/
def accLane (t : Team) (w : Warp) (a : SReg) (L : Nat) : Option (Nat × Nat) :=
  let m := (w.sv a.val).toNat
  let n := (w.sv (a.val + 1)).toNat + L
  if m < 384 ∧ n < t.accCols then some (m, n) else none

/-- MRD: a poisoned element raises MCHECK in its lane (R441), with DETAIL 0 and ADDR 0 (DEDUCED, log entry 26). -/
def execMrd (d : VReg) (a : SReg) (b : Bool) (s : State) : Out :=
  maccOp { b := b, u := { regs := [⟨1, d, 1, false, true⟩], ss := usePair a, var := true } } (fun x s w t =>
    if 8 ≤ (s.core w.die w.core).queueUsed ∨ s.blocked s.nextUid (t.accZones (w.sv a.val).toNat 1 false) then Eff.wait s w
    else
      x.lanes.foldl (fun f L =>
        match accLane t w a L with
        | none => f.trap L ⟨cPROT, 0, 0⟩
        | some (m, n) =>
          if s.accBad t m n then f.trap L ⟨cMCHECK, 0, 0⟩
          else { f with w := f.w.modLane L (fun l => l.setV w.alloc d (BitVec.ofNat 32 (s.accVal t m n))) })
        (Eff.idle s w)) s

/-- MWR. -/
def execMwr (d : VReg) (a : SReg) (b : Bool) (s : State) : Out :=
  maccOp { b := b, u := { regs := [⟨1, d, 1, true, false⟩], ss := usePair a } } (fun x s w t =>
    if 8 ≤ (s.core w.die w.core).queueUsed ∨ s.blocked s.nextUid (t.accZones (w.sv a.val).toNat 1 true) then Eff.wait s w
    else
      x.lanes.foldl (fun f L =>
        match accLane t w a L with
        | none => f.trap L ⟨cPROT, 0, 0⟩
        | some (m, n) => { f with s := f.s.setAcc t m n ((w.lane L).v w.alloc d) }) (Eff.idle s w)) s

/-- MDRAIN forms: a copy that takes an entry of the matrix queue (R231, R253). -/
def mdrainOp (b : Bool) (fn : CopyFn) (a : SReg) (tag : Tag) (s : State) : Out :=
  maccOp { b := b, u := { ss := useGroup a } } (fun x s w t =>
    let cb := w.group a
    if cbIllegal fn cb then Eff.trapAll x s w cILLEGAL 0
    else
      match cbMisaligned fn cb with
      | some ad => Eff.trapAll x s w cMISALIGN 0 (BitVec.ofNat 64 ad)
      | none =>
        if t.cbOutside fn cb then Eff.trapAll x s w cPROT 0
        else if w.tags.getD tag.val .free = .busy then Eff.trapAll x s w cTAGBUSY tag.val
        else if 64 ≤ (s.core w.die w.core).copies.length ∨ 8 ≤ (s.core w.die w.core).queueUsed then Eff.wait s w
        else s.startCopy x w t fn cb tag.val) s

/-- MDRAIN. -/
def execMdrain (a : SReg) (t : Tag) (b : Bool) (s : State) : Out := mdrainOp b .drain a t s
/-- MDRAIN.ADD.F32. -/
def execMdrainAddF32 (a : SReg) (t : Tag) (b : Bool) (s : State) : Out := mdrainOp b .drainAddF32 a t s
/-- MDRAIN.ADD.I32. -/
def execMdrainAddI32 (a : SReg) (t : Tag) (b : Bool) (s : State) : Out := mdrainOp b .drainAddI32 a t s
/-- MDRAIN.ADD.I64. -/
def execMdrainAddI64 (a : SReg) (t : Tag) (b : Bool) (s : State) : Out := mdrainOp b .drainAddI64 a t s

end Sys2Proof.Machine
end

