-- ==== Sys2Proof/Machine/System.lean ====
section
/-! DEFINITION. TRAP, BRK, ERET, SRD, SRDS, SWR (R258 to R262, R270), special registers (R21 to R24), and fetching an
instruction with what becomes of one that cannot be fetched or decoded (R51, R52, R68). -/
namespace Sys2Proof.Machine

open Sys2Proof

/-! ## Traps on purpose, and the return (R259, R270) -/

/-- TRAP. -/
def execTrap (n : BitVec 7) (b : Bool) (s : State) : Out :=
  issue { b := b, tx := false } (fun x s w => Eff.trapAll x s w cTRAP n.toNat) s

/-- BRK. -/
def execBrk (n : BitVec 7) (b : Bool) (s : State) : Out :=
  issue { b := b, tx := false } (fun x s w => Eff.trapAll x s w cBRK n.toNat) s

/-- What ERET reads of the trap record: PRI of word0, and RESUME (R267). -/
def State.readResume (s : State) (w : Warp) (L pa : Nat) : BitVec 3 × DWord :=
  (BitVec.ofNat 3 (bits (s.loadVal w L pa 4) 10 8), BitVec.ofNat 64 (s.loadVal w L (pa + 0x20) 8))

/-- ERET with the physical address of the trap record, whose page is marked IO or not: a record that is poisoned raises MCHECK with the
address of the load that meets it. -/
def eretAt (x : Ctx) (s : State) (w : Warp) (pa : Nat) (io : Bool) : Eff :=
  let L := lowestLane x.mask
  if !io ∧ s.loadBusy w.uid L w.die pa 64 then (Eff.idle s w).atHome L pa 64 false
  else if !io ∧ (Eff.idle s w).l1Shut (pa / 128) then (Eff.idle s w).hold id (some 9)
  else if s.loadPoison w L pa 4 then Eff.checkAll x s w 0 w.trec pa 4
  else if s.loadPoison w L (pa + 0x20) 8 then Eff.checkAll x s w 0 (w.trec + 0x20) (pa + 0x20) 8
  else
    let s2 := if io then s else (s.forced (pa / 128) (.thread w.uid L)).touchLine w.die w.core (pa / 128)
    let r := s2.readResume w L pa
    match badTarget r.2 with
    | some t => Eff.trapAll x s2 w t.cause t.detail t.addr
    | none =>
      let all := w.front.foldl (fun m e => m ||| e.mask) x.mask
      { s := s2, w := w.leaveHandler r.2 r.1 all, gone := x.mask, endRun := true }

/-- ERET: outside handler mode PRIV; else two plain loads, made for the lowest active lane, say where and with which priority
every lane of the handler resumes (R270). -/
def execEret (b : Bool) (s : State) : Out :=
  issue { b := b, commit := true, tx := false } (fun x s w =>
    if !w.handler then Eff.trapAll x s w cPRIV 0x80
    else if !w.settled then Eff.wait s w
    else
      let ea := w.trec.toNat
      let asid := s.asidOf w.gk
      match s.translate w.die w.core asid ea with
      | (.fault m g, s1) =>
        { s := s1.noteFault (mkFault asid ea .read 4 w.die w.core m g) (.warp w.uid), w := w, endRun := true
          pages := x.lanes.map (fun L => (L, ⟨bits ea 54 16, asid, w.trec, false, g⟩)) }
      | (.held, _) => (Eff.wait s w).hold (fun y => (y.translate w.die w.core asid ea).2)
      | (.backing, s1) => Eff.trapAll x s1 w cPFAIL 1 w.trec
      | (.ok pa e, s1) =>
        match e.refuses .read with
        | some d => Eff.trapAll x s1 w cPROT d w.trec
        | none => eretAt x s1 w pa e.io) s

/-! ## Special registers (R21, R260) -/

/-- Access is privileged (R21). -/
def spPrivileged : SpReg → Bool
  | .tcause | .tepc | .tmask | .trec | .tscratch | .asid => true
  | .lane | .wwid | .warp | .team | .tid | .gtid | .sid | .lastsid | .core | .die | .dev | .grid | .depth | .clock | .time
  | .tagrdy | .tagerr | .fflags | .wmode | .txst | .rsp | .tflags => false

/-- A read is a variable-latency result (R21). -/
def spSlow : SpReg → Bool
  | .clock | .time | .txst => true
  | .lane | .wwid | .warp | .team | .tid | .gtid | .sid | .lastsid | .core | .die | .dev | .grid | .depth
  | .tagrdy | .tagerr | .fflags | .wmode | .rsp | .tflags | .tcause | .tepc | .tmask | .trec | .tscratch | .asid => false

/-- Value of a special register for lane L of a warp, zero-extended (R21). -/
def State.special (s : State) (w : Warp) (L : Nat) (r : SpReg) : DWord :=
  let l := w.lane L
  let x (v : Word) : DWord := v.zeroExtend 64
  let n (v : Nat) : DWord := BitVec.ofNat 64 v
  match r with
  | .lane => n L
  | .wwid => n w.width
  | .warp => x w.index
  | .team => x l.team
  | .tid => if w.gathered then 0xFFFFFFFF else x (w.index * BitVec.ofNat 32 w.width + BitVec.ofNat 32 L)
  | .gtid => l.gtid
  | .sid => l.sid
  | .lastsid => l.lastsid
  | .core => n w.core
  | .die => n w.die
  | .dev => n s.mgmt.dev
  | .grid => x (s.recOf w.gk).grid
  | .depth => n (s.recOf w.gk).depth
  | .clock => s.clockReg w.die w.core
  | .time => s.timeReg
  | .tagrdy => w.tagRdy
  | .tagerr => w.tagErr
  | .fflags => l.fflags.zeroExtend 64
  | .wmode => x w.wmode
  | .txst => x l.tx.reg
  | .rsp => n l.stack.length
  | .tflags => match s.laneTeam w l with | some t => t.tflags.zeroExtend 64 | none => 0
  | .tcause => x w.tcause
  | .tepc => w.tepc
  | .tmask => w.tmask
  | .trec => w.trec
  | .tscratch => w.tscratch
  | .asid => n (s.asidOf w.gk)

/-- SRD (R22, R260). -/
def execSrd (d : VReg) (r : SpReg) (b : Bool) (s : State) : Out :=
  issue { b := b, tx := false
          u := { regs := [⟨1, d, if r.wide then 2 else 1, false, true⟩], var := spSlow r } } (fun x s w =>
    if spPrivileged r && !w.handler then Eff.trapAll x s w cPRIV r.code.toNat
    else Eff.perLane x s w (fun L l =>
      let v := s.special w L r
      .ok (if r.wide then l.setVP w.alloc d v else l.setV w.alloc d (v.extractLsb' 0 32)))) s

/-- SRDS (R22, R260). -/
def execSrds (d : SReg) (r : SpReg) (b : Bool) (s : State) : Out :=
  issue { b := b, tx := false, cyc := (1, 1, 1)
          u := { sd := if r.wide then [d.val, d.val + 1] else [d.val], var := spSlow r } } (fun x s w =>
    if r.laneScope then Eff.trapAll x s w cILLEGAL 0
    else if spPrivileged r && !w.handler then Eff.trapAll x s w cPRIV r.code.toNat
    else
      let v := s.special w (lowestLane x.mask) r
      Eff.idle s (if r.wide then w.setSP d.val v else w.setS d.val (v.extractLsb' 0 32))) s

/-- How SWR issues for each destination: what it reads and writes; tflags waits until the warp is not speculative (R261); a
tscratch write does not, and a rollback leaves it (DESIGN CHOICE, log entry 63). -/
def swrKind (b : Bool) : SwrDst → Kind
  | .fflags a => { b := b, tx := false, u := { regs := [⟨2, a, 1, true, false⟩], fl := true } }
  | .tflags a => { b := b, tx := false, commit := true, u := { regs := [⟨2, a, 1, true, false⟩] } }
  | .wmode a => { b := b, tx := false, u := { ss := [a.val], fl := true } }
  | .tscratch a => { b := b, tx := false, u := { ss := usePair a } }
  | .readOnly _ _ => { b := b, tx := false }

/-- SWR (R22, R23, R261). -/
def execSwr (dst : SwrDst) (b : Bool) (s : State) : Out :=
  issue (swrKind b dst) (fun x s w =>
    match dst with
    | .fflags a => Eff.perLane x s w (fun _ l => .ok { l with fflags := (l.v w.alloc a).extractLsb' 0 5 })
    | .tflags a =>
      Eff.idle (x.lanes.foldl (fun s1 L =>
        let l := w.lane L
        s1.modTeam w.gk l.team.toNat (fun t => { t with tflags := (l.v w.alloc a).extractLsb' 0 6 })) s) w
    | .wmode a =>
      if wmOk (w.sv a.val) then Eff.idle s { w with wmode := w.sv a.val } else Eff.trapAll x s w cILLEGAL 0
    | .tscratch a =>
      if w.handler then Eff.idle s { w with tscratch := w.sp a.val }
      else Eff.trapAll x s w cPRIV SpReg.tscratch.code.toNat
    | .readOnly _ _ => Eff.trapAll x s w cILLEGAL 0) s

/-! ## Fetch (R51, R52, R68) -/

/-- What fetching a halfword gives. -/
inductive FetchHalf where
  | ok (h : BitVec 16)
  /-- A resolvable fault: malformed, migration. -/
  | page (malformed mig : Bool)
  | trap (t : LTrap)
  /-- The walk of the tables waits (R394). -/
  | held
deriving DecidableEq, Repr

/-- A line of memory as an instruction cache fills it. -/
def State.codeFill (s : State) (line : Nat) : CodeLine :=
  { line := line, bytes := (List.range 128).map (fun i => Memory.read s.mem (128 * line + i))
    bad := s.poison.filter (fun g => g / 16 == line) }

/-- The line of an address as the instruction cache of core k of die d gives it: the copy it holds, or one filled now where it holds
none or the granule of the address is poisoned in it. The cache keeps its last 512 lines and does not follow stores (R54, R386,
R441). DEDUCED, log entry 35. -/
def State.codeLine (s : State) (d k pa : Nat) : CodeLine × State :=
  match (s.core d k).icache.find? (fun c => c.line == pa / 128 && !c.bad.contains (pa / 8)) with
  | some c => (c, s)
  | none =>
    let c := s.codeFill (pa / 128)
    (c, s.modCore d k (fun x => { x with icache := (c :: x.icache.filter (fun y => y.line != c.line)).take 512 }))

/-- The line has to be filled, and a host holds a half of it in HM: the fill, a read, waits for the host's data (R422). -/
def State.codeHeld (s : State) (d k pa : Nat) : Bool :=
  !(s.core d k).icache.any (fun c => c.line == pa / 128 && !c.bad.contains (pa / 8)) && (s.line (pa / 128)).halves.contains .hm

/-- The halfword of a line at an address. -/
def CodeLine.half (c : CodeLine) (pa : Nat) : BitVec 16 :=
  BitVec.ofNat 16 (leNat [c.bytes.getD (pa % 128) 0, c.bytes.getD (pa % 128 + 1) 0])

/-- Fetches the halfword at an address for a warp (R52, R386, R392, R441). -/
def State.fetchHalf (s : State) (w : Warp) (pc : DWord) : FetchHalf × State :=
  if bits pc.toNat 63 55 ≠ 0 then (.trap ⟨cPROT, 1, pc⟩, s)
  else
    match s.translate w.die w.core (s.asidOf w.gk) pc.toNat with
    | (.fault m g, s1) => (.page m g, s1)
    | (.held, s1) => (.held, s1)
    | (.backing, s1) => (.trap ⟨cPFAIL, 2, pc⟩, s1)
    | (.ok pa e, s1) =>
      match e.refuses .execute with
      | some d => (.trap ⟨cPROT, d, pc⟩, s1)
      | none =>
        if s1.codeHeld w.die w.core pa then (.held, s1.urge (pa / 128 * 128) 128 false)
        else
        let (c, s2) := s1.codeLine w.die w.core pa
        if c.bad.contains (pa / 8) then (.trap ⟨cMCHECK, 4, pc⟩, s2)
        else (.ok (c.half pa), s2)

/-- What fetching an instruction gives: its word and length, or why not, with the address and the halfword fetched so far. -/
inductive Fetched where
  | ok (w : Word) (len : Nat)
  | page (addr : DWord) (low : Option (BitVec 16)) (malformed mig : Bool)
  | trap (t : LTrap) (low : Option (BitVec 16))
  | held
deriving DecidableEq, Repr

/-- Fetches the instruction at an address: one halfword, and a second where bit 0 says so (R51, R52). -/
def State.fetch (s : State) (w : Warp) (pc : DWord) : Fetched × State :=
  match s.fetchHalf w pc with
  | (.page m g, s1) => (.page pc none m g, s1)
  | (.trap t, s1) => (.trap t none, s1)
  | (.held, s1) => (.held, s1)
  | (.ok h, s1) =>
    if h.getLsbD 0 then
      match s1.fetchHalf w (pc + 2) with
      | (.page m g, s2) => (.page (pc + 2) (some h) m g, s2)
      | (.trap t, s2) => (.trap t (some h), s2)
      | (.held, s2) => (.held, s2)
      | (.ok h2, s2) => (.ok (h2 ++ h) 4, s2)
    else (.ok (h.zeroExtend 32) 2, s1)

/-- The word and length that the trap record of an instruction that could not be fetched shows: what was not fetched is free
(DESIGN CHOICE, log entry 14). -/
def unfetched (low : Option (BitVec 16)) (seed : Nat) : Word × Nat :=
  let hi : BitVec 16 := Config.freeByte seed 3 ++ Config.freeByte seed 2
  match low with
  | some h => (hi ++ h, 4)
  | none =>
    let lo : BitVec 16 := Config.freeByte seed 1 ++ Config.freeByte seed 0
    if lo.getLsbD 0 then (hi ++ lo, 4) else (lo.zeroExtend 32, 2)

/-- ILLEGAL_INSTRUCTION: a word that fails decode raises ILLEGAL in every active lane (R68); its boundary bit ends the run (R51). -/
def execIllegalInstruction (insn : Word) (s : State) : Out :=
  issue { b := insn.getLsbD 1, bad := true, len := if insn.getLsbD 0 then 4 else 2 } (fun x s w => Eff.trapAll x s w cILLEGAL 0)
    { s with insn := insn }

/-- INSTRUCTION_FETCH_FAULT: every active lane of the selected entry parks at the instruction, or raises PROT, PFAIL or MCHECK
(R52, R272, R273). Nothing happens where the fetch succeeds. -/
def execInstructionFetchFault (s : State) : Out :=
  match s.cur with
  | none => .next s
  | some w0 =>
    match w0.selected with
    | none => .next s
    | some e0 =>
      let (seed, s0) := s.draw
      let trap (low : Option (BitVec 16)) (body : Ctx → State → Warp → Eff) : Out :=
        let u := unfetched low seed
        issue { b := false, len := u.2 } body { s0 with insn := u.1 }
      match (s.fetch w0 e0.pc).1 with
      | .ok _ _ => .next s
      | .held => .next s
      | .trap t low => trap low (fun x s w =>
          match (if t.cause = cMCHECK then (s.translate w.die w.core (s.asidOf w.gk) t.addr.toNat).1 else .held) with
          | .ok pa _ => Eff.checkAll x s w t.detail t.addr pa 2
          | _ => Eff.trapAll x s w t.cause t.detail t.addr)
      | .page a low m g => trap low (fun x s w =>
          let asid := s.asidOf w.gk
          let s1 := if x.lanes.all (fun L => (w.lane L).txActive) then s
            else s.noteFault (mkFault asid a.toNat .execute 0 w.die w.core m g) (.warp w.uid)
          { s := s1, w := w, pages := x.lanes.map (fun L => (L, ⟨bits a.toNat 54 16, asid, a, true, g⟩)) })

end Sys2Proof.Machine
end

