-- ==== Sys2Proof/Machine/Engine.lean ====
section
/-! DEFINITION. What the bulk copy engine carries out: expansion (R112 to R116, R238 to R240), quantising (R241), moves and
drains with their stops (R253 to R255), and the engine's part in lines (R254, R289, R390, R414). -/
namespace Sys2Proof.Machine

open Sys2Proof

/-! ## Reaching memory -/

/-- Why a copy does not go on. -/
inductive Halt where
  /-- It stops with a status (R230). -/
  | stop (status : Nat)
  /-- It waits for a fault on the page of an address (R255). -/
  | wait (va : Nat) (acc : Access) (malformed mig : Bool)
  /-- Bytes cannot be read yet: a lock or an operation keeps their line, a host may have changed them, or a forced publish waits (R287,
  R410, R422). -/
  | held (pa n : Nat)
  /-- The walk of the tables for this address waits (R394). -/
  | walk (va : Nat)
deriving DecidableEq, Repr

/-- Statuses of R230. -/
def stFAULT : Nat := 1
/-- POISON. -/
def stPOISON : Nat := 2
/-- ARRMODE. -/
def stARRMODE : Nat := 3
/-- SUSPECT. -/
def stSUSPECT : Nat := 4
/-- CIMERR. -/
def stCIMERR : Nat := 5
/-- REMOTE. -/
def stREMOTE : Nat := 7

/-- The address spaces a copy moves bytes between: global, storage view of the team, staging area. -/
inductive Loc where
  | glob (va : Nat) | arr (o : Nat) | stage (o : Nat)
deriving DecidableEq, Repr

/-- A copy under way: the state with what it has done locally, why it halted, BYTES, the bytes it writes to global memory by
physical address, and its flags. -/
structure Run where
  s : State
  halt : Option Halt := none
  /-- Steps carried. -/
  taken : Nat := 0
  bytes : Nat := 0
  cells : List Host.Cell := []
  fl : FFlags := 0
  sat : Bool := false

/-- Translates an address for a copy (R255, R392): an unresolvable fault, missing permission or an IO page stops it. -/
def State.engXlat (s : State) (c : Copy) (va : Nat) (acc : Access) : (Halt ⊕ Nat) × State :=
  if bits va 63 55 ≠ 0 ∨ 2 ^ 64 ≤ va ∨ (c.failed ∧ c.waits = some (bits va 54 16)) then (.inl (.stop stFAULT), s)
  else
    match s.translate c.die c.core (s.asidOf c.gk) va with
    | (.fault m g, s1) => (.inl (.wait va acc m g), s1)
    | (.held, s1) => (.inl (.walk va), s1)
    | (.backing, s1) => (.inl (.stop stFAULT), s1)
    | (.ok pa e, s1) => if e.io || (e.refuses acc).isSome then (.inl (.stop stFAULT), s1) else (.inr pa, s1)

/-- Reads a piece of global memory as the engine's agent: reading poison stops the copy (R255). -/
def State.engRead (s : State) (c : Copy) (va n : Nat) : (Halt ⊕ List Byte) × State :=
  match s.engXlat c va .read with
  | (.inl h, s1) => (.inl h, s1)
  | (.inr pa, s1) =>
    let a : Agent := .engine c.die c.core
    if s1.agentShut a pa n then (.inl (.held pa n), s1)
    else if s1.poisoned pa n then (.inl (.stop stPOISON), s1)
    else
      let s2 := s1.forced (pa / 128) a
      (.inr (bytesAt (s2.byteFor a) pa n), s2)

/-- Reads `n` bytes at an address. -/
def Run.read (r : Run) (c : Copy) (va n : Nat) : Run × List Byte :=
  (pieces va n).foldl (fun (x : Run × List Byte) p =>
    if x.1.halt.isSome then x
    else
      match x.1.s.engRead c p.1 p.2 with
      | (.inl h, s1) => ({ x.1 with s := s1, halt := some h }, x.2)
      | (.inr bs, s1) => ({ x.1 with s := s1 }, x.2 ++ bs)) (r, [])

/-- Translates the destination of bytes, halting where it is not reachable. -/
def Run.target (r : Run) (c : Copy) (va n : Nat) (acc : Access) : Run :=
  (pieces va n).foldl (fun x p =>
    if x.halt.isSome then x
    else
      match x.s.engXlat c p.1 acc with
      | (.inl h, s1) => { x with s := s1, halt := some h }
      | (.inr _, s1) => { x with s := s1 }) r

/-- Adds bytes to what the copy writes to global memory. -/
def Run.put (r : Run) (c : Copy) (va : Nat) (bs : List Byte) : Run :=
  (pieces va bs.length).foldl (fun x p =>
    if x.halt.isSome then x
    else
      match x.s.engXlat c p.1 .write with
      | (.inl h, s1) => { x with s := s1, halt := some h }
      | (.inr pa, s1) =>
        { x with s := s1, cells := x.cells ++ ((bs.drop (p.1 - va)).take p.2).zipIdx.map (fun bi => (pa + bi.2, bi.1)) }) r

/-! ## Plain moves: G2A, A2G, G2G, SCLD (R235, R236) -/

/-- Reads a piece of a source; of array memory, after the posted stores before a narrow fence that what it reads follows (R287). -/
def Run.from (r : Run) (c : Copy) (t : Team) (l : Loc) (n : Nat) : Run × List Byte :=
  match l with
  | .glob va => r.read c va n
  | .arr o =>
    let (k, _, a) := t.arrayPlace o
    let m := r.s.core t.die k
    let line := arrayLine t.die k a
    if touchesPoison m.arrPoison a n then ({ r with halt := some (.stop stPOISON) }, [])
    else if r.s.forcedShut line (.engine c.die c.core) then ({ r with halt := some (.held (128 * line) n) }, [])
    else
      let s1 := r.s.forced line (.engine c.die c.core)
      ({ r with s := s1 }, bytesAt (s1.core t.die k).arrayByte a n)
  | .stage _ => (r, [])

/-- Writes a piece to a destination. -/
def Run.send (r : Run) (c : Copy) (t : Team) (l : Loc) (bs : List Byte) : Run :=
  match l with
  | .glob va => r.put c va bs
  | .arr o =>
    let (k, _, a) := t.arrayPlace o
    { r with s := r.s.arrayWrite none t.die k a bs }
  | .stage o => { r with s := r.s.modCore c.die c.core (fun k => { k with scale := k.scale.writes (0x16000 + o) bs }) }

/-- The pieces that a plain move carries, in row order: source, destination, bytes. -/
def Copy.moves (c : Copy) : List (Loc × Loc × Nat) :=
  let n := cbRowBytes c.fn c.cb
  let ga := cbAddr c.cb 0
  (List.range (cbRows c.fn c.cb)).flatMap (fun row =>
    (pieces (ga + row * cbPitch c.fn c.cb) n).map (fun p =>
      let i := p.1 - (ga + row * cbPitch c.fn c.cb)
      let o := cbF c.cb 2 19 0 + row * n + i
      match c.fn with
      | .g2g => (.glob p.1, .glob (cbAddr c.cb 2 + i), p.2)
      | .scld => (.glob p.1, .stage (cbF c.cb 2 12 0 + i), p.2)
      | _ => (.glob p.1, .arr o, p.2)))

/-- The bytes of an A2G by lines of 128 storage-view bytes: the first byte, as an offset into what it moves, and how many (R235, R291). -/
def Copy.arrayLines (c : Copy) : List (Nat × Nat) :=
  let a := cbF c.cb 2 19 0
  (pieces a (cbRows c.fn c.cb * cbRowBytes c.fn c.cb)).map (fun p => (p.1 - a, p.2))

/-- Where `n` bytes of an A2G from offset `i` of what it moves go, as pieces in no two rows or lines: address, and bytes (R233, R235). -/
def Copy.arrayDests (c : Copy) (i n : Nat) : List (Nat × Nat) :=
  let len := cbRowBytes c.fn c.cb
  (List.range ((i + n + len - 1) / len - i / len)).flatMap (fun j =>
    let row := i / len + j
    let lo := max i (row * len)
    let hi := min (i + n) ((row + 1) * len)
    pieces (cbAddr c.cb 0 + row * cbPitch c.fn c.cb + (lo - row * len)) (hi - lo))

/-- Carries one line of array memory of an A2G: it is read at one point, then goes to its places in row order (R280, R291). -/
def Copy.moveLine (c : Copy) (t : Team) (r : Run) (i n : Nat) : Run :=
  let y := r.from c t (.arr (cbF c.cb 2 19 0 + i)) n
  (c.arrayDests i n).foldl (fun (x : Run × List Byte) p =>
    if x.1.halt.isSome then x
    else
      let z := x.1.put c p.1 (x.2.take p.2)
      (if z.halt.isSome then z else { z with bytes := z.bytes + p.2 }, x.2.drop p.2)) y |>.1

/-- Carries one piece of a plain move (R255). -/
def Copy.move (c : Copy) (t : Team) (r : Run) (src dst : Loc) (n : Nat) : Run :=
  let y := r.from c t src n
  if y.1.halt.isSome then y.1
  else
    let z := y.1.send c t dst y.2
    if z.halt.isSome then z else { z with bytes := z.bytes + n }

/-! ## Expansion (R112 to R116, R238) -/

/-- Value of an element of a format (R234). -/
def elemValue (fmt x : Nat) : FV :=
  match fmt with
  | 1 => .num (.ofInt (sx x 4) 0)
  | 2 => .num (.ofInt (sx x 8) 0)
  | 3 => e2m1.value x
  | 4 => e2m3.value x
  | 5 => e3m2.value x
  | 6 => e4m3.value x
  | _ => e5m2.value x

/-- Exponent offset f of an exact format; none for an aligned one (R112). -/
def exactOffset : Nat → Option Nat
  | 1 => some 0 | 2 => some 0 | 3 => some 1 | 4 => some 3 | _ => none

/-- A number rounded to a signed multiple of 2^q by RNE. -/
def rneAt (x : Dy) (q : Int) : Int :=
  let n : Int := ((x.roundAt .rne q).1 : Int)
  if x.neg then -n else n

/-- Expands the elements of a segment, or of a group of 8: E and the integers. Elements come with their scale byte, none where
no scale is read (R113 to R116, R238). -/
def expandGroup (fmt : Nat) (els : List (Nat × Option Nat)) : BitVec 16 × List Int :=
  let vals := els.map (fun x => (elemValue fmt x.1, x.2))
  let bad := vals.any (fun x => (match x.1 with | .num _ => false | _ => true) || x.2 == some 255)
  if bad then (0x8000, els.map (fun _ => 0))
  else
    let nums := vals.map (fun x => ((match x.1 with | .num d => d | _ => Dy.zero false), x.2))
    match exactOffset fmt with
    | some f =>
      let top := nums.foldl (fun m x => max m (x.2.getD 127)) 0
      if nums.all (fun x => x.2.isNone) then
        (0, nums.map (fun x => rneAt { x.1 with e := x.1.e + f } 0))
      else
        (BitVec.ofInt 16 ((top : Int) - 127 - f),
         nums.map (fun x => rneAt { x.1 with e := x.1.e + f - ((top : Int) - (x.2.getD 127 : Nat)) } 0))
    | none =>
      let xs := nums.map (fun x => ({ x.1 with e := x.1.e + ((x.2.getD 127 : Nat) : Int) - 127 } : Dy))
      match (xs.filter (fun x => x.m != 0)).map (fun x => x.log2) with
      | [] => (0, xs.map (fun _ => 0))
      | a :: rest =>
        let e := rest.foldl max a - 6
        (BitVec.ofInt 16 e, xs.map (fun x => rneAt x e))

/-- Element i of packed bytes (R93). -/
def packedElem (bits : Nat) (v i : Nat) : Nat := (v >>> (i * bits)) % 2 ^ bits

/-- Index in the staging area of the scale of element k of row or column x (R238). -/
def scaleIndex (fn : CopyFn) (cb : List Word) (k x : Nat) : Nat :=
  let b := if cbMx cb then k / 32 else k / 48
  if fn = .g2ax then b * cbN fn cb + x else x * (if cbMx cb then 48 * cbKb cb / 32 else cbKb cb) + b

/-- Scale of element k of row or column x, from the issuing core's staging area. -/
def Copy.scaleOf (c : Copy) (s : State) (k x : Nat) : Option Nat :=
  if cbNosc c.fn c.cb then none
  else some ((s.core c.die c.core).scale.read (0x16000 + scaleIndex c.fn c.cb k x)).toNat

/-- A scale that elements ks of row or column x use is poisoned (R208, R441). -/
def Copy.scaleBad (c : Copy) (s : State) (ks : List Nat) (x : Nat) : Bool :=
  !cbNosc c.fn c.cb && ks.any (fun k =>
    (s.core c.die c.core).scale.poison.contains ((0x16000 + scaleIndex c.fn c.cb k x) / 8))

/-- A byte with the bits in [a, a + len) of a row word replaced by those of v; `i` is the byte's index. -/
def mergeByte (old : Byte) (i a len v : Nat) : Byte :=
  BitVec.ofNat 8 ((List.range 8).foldl (fun n j =>
    let p := 8 * i + j
    n + (if (if a ≤ p ∧ p < a + len then v.testBit (p - a) else old.getLsbD j) then 2 ^ j else 0)) 0)

/-- Writes `len` bits of v at data column a of a row of macro p of a core; bytes written in part keep their other bits
(R314, R315). -/
def State.arrayBits (s : State) (d k p row a len v : Nat) : State :=
  if len = 0 then s
  else
    let base := 12288 * p + 32 * row
    let i0 := (a + 7) / 8
    let i1 := (a + len) / 8
    let s1 := if i0 < i1 then s.arrayWrite none d k (base + i0) (toBytes (i1 - i0) (v >>> (8 * i0 - a))) else s
    let edges := dedup ((if a % 8 = 0 then [] else [a / 8]) ++ (if (a + len) % 8 = 0 then [] else [(a + len) / 8]))
    edges.foldl (fun x i =>
      x.arrayWrite none d k (base + i) [mergeByte ((x.core d k).arrayByte (base + i)) i a len v]) s1

/-- Writes the integers of consecutive element columns of one row of the tile: array segment `seg`, row `r` of it (R314). -/
def State.tileRow (s : State) (t : Team) (k seg r w col : Nat) (ns : List Int) : State :=
  let v := (ns.zipIdx).foldl (fun acc x => acc + trunc x.1 w * 2 ^ (w * x.2)) 0
  let a := col * w
  let len := ns.length * w
  (List.range 5).foldl (fun x nq =>
    let lo := max a (256 * nq)
    let hi := min (a + len) (256 * nq + 256)
    if lo < hi then x.arrayBits t.die k (5 * (seg / 8) + nq) (48 * (seg % 8) + r) (lo - 256 * nq) (hi - lo) ((v >>> (lo - a)) % 2 ^ (hi - lo))
    else x) s

/-- Writes an effective exponent (R242). -/
def State.putE (s : State) (d k a : Nat) (e : BitVec 16) : State :=
  s.modCore d k (fun c => { c with scale := c.scale.writes a (toBytes 2 e.toNat) })

/-- Segments of a unit: 1, or 8 with GRP. -/
def unitSegs (cb : List Word) : Nat := if cbGrp cb then 8 else 1

/-- Delivers unit `u` of a G2AX: its rows of the source are read whole, then elements and exponents are written (R239, R255). -/
def Copy.axUnit (c : Copy) (t : Team) (r : Run) (u : Nat) : Run :=
  let fmt := cbFmt c.fn c.cb
  let bits := fmtBits fmt
  let w := fmtWidth fmt
  let n := cbN c.fn c.cb
  let n0 := cbN0 c.fn c.cb
  let g := unitSegs c.cb
  let ks := (List.range (48 * g)).map (· + 48 * g * u)
  let rowLen := cbRowBytes c.fn c.cb
  let x := ks.foldl (fun (x : Run × List Nat) k =>
    let y := x.1.read c (cbAddr c.cb 0 + k * cbPitch c.fn c.cb) rowLen
    (y.1, x.2 ++ [leNat y.2])) (r, [])
  let r1 := x.1
  if r1.halt.isSome then r1
  else if (List.range n).any (fun q => c.scaleBad r1.s ks q) then { r1 with halt := some (.stop stPOISON) }
  else
    let cols := (List.range n).map (fun q =>
      expandGroup fmt ((ks.zip x.2).map (fun kv => (packedElem bits kv.2 q, c.scaleOf r1.s kv.1 q))))
    let seg (k : Nat) : Nat := cbF c.cb 2 5 0 + k / 48
    let s1 := t.cores.foldl (fun a core =>
      let mine := (List.range n).filter (fun q => (t.column (n0 + q)).1 == core)
      match mine with
      | [] => a
      | q0 :: _ =>
        let a1 := ks.zipIdx.foldl (fun b ki =>
          b.tileRow t core (seg ki.1) (ki.1 % 48) w (t.column (n0 + q0)).2 (mine.map (fun q => ((cols.getD q (0, [])).2).getD ki.2 0))) a
        mine.foldl (fun b q => (List.range g).foldl (fun b2 i =>
          b2.putE t.die core (0xC000 + 2 * ((cbF c.cb 2 5 0 + g * u + i) * 320 + (t.column (n0 + q)).2)) (cols.getD q (0, [])).1) b) a1) r1.s
    { r1 with s := s1, bytes := r1.bytes + 48 * g * rowLen }

/-- Bit-plane i of expanded elements: bit k is bit i of element k (R240). -/
def planeOf (w i : Nat) (ns : List Int) : Nat :=
  ns.zipIdx.foldl (fun acc x => if (trunc x.1 w).testBit i then acc + 2 ^ x.2 else acc) 0

/-- Cores that a G2RX serves (R240). DEDUCED, log entry 25. -/
def State.servedCores (s : State) (c : Copy) : List Nat :=
  (g2rxCores c).filter (fun k => match (s.core c.die k).mat with | some (g, _) => g == c.gk | none => false)

/-- Delivers A row `m` of a G2RX to every served core (R240, R255). -/
def Copy.rxRow (c : Copy) (served : List Nat) (r : Run) (m : Nat) : Run :=
  let fmt := cbFmt c.fn c.cb
  let w := fmtWidth fmt
  let kb := cbKb c.cb
  let g := unitSegs c.cb
  let rowLen := cbRowBytes c.fn c.cb
  let (r1, bs) := r.read c (cbAddr c.cb 0 + m * cbPitch c.fn c.cb) rowLen
  if r1.halt.isSome then r1
  else if c.scaleBad r1.s (List.range (48 * kb)) m then { r1 with halt := some (.stop stPOISON) }
  else
    let v := leNat bs
    let groups := (List.range (kb / g)).map (fun u => expandGroup fmt (((List.range (48 * g)).map (· + 48 * g * u)).map (fun k =>
      (packedElem (fmtBits fmt) v k, c.scaleOf r1.s k m))))
    let ns := groups.flatMap (·.2)
    let row := (List.range w).flatMap (fun i => toBytes (6 * kb) (planeOf w i ns))
    let s1 := served.foldl (fun a k =>
      let a1 := a.modCore c.die k (fun x =>
        { x with rowBuf := x.rowBuf.writes (4096 * cbF c.cb 3 15 12 + (cbM0 c.cb + m) * rowBytes w kb) row })
      (List.range kb).foldl (fun b i => b.putE c.die k (2 * ((cbM0 c.cb + m) * 64 + i)) (groups.getD (i / g) (0, [])).1) a1) r1.s
    { r1 with s := s1, bytes := r1.bytes + rowLen }

/-! ## Quantising out (R241) -/

/-- emax of an output format. -/
def q2gEmax : Nat → Int
  | 2 => 6 | 3 => 2 | 4 => 2 | 5 => 4 | 6 => 8 | _ => 15

/-- Format of FMT 3 to 7. -/
def q2gFmt : Nat → Fmt
  | 3 => e2m1 | 4 => e2m3 | 5 => e3m2 | 6 => e4m3 | _ => e5m2

/-- An element of a block with scale S: its bits, flags, and whether it saturated. -/
def q2gElem (fmt : Nat) (md : Mode) (x : Dy) (sc : Nat) : Nat × FFlags × Bool :=
  let y : Dy := { x with e := x.e - ((sc : Int) - 127) }
  if fmt = 2 then
    let r := y.roundAt md 0
    let sat : Bool := decide (127 < r.1)
    let n : Int := if sat then 127 else r.1
    (trunc (if x.neg then -n else n) 8, if sat then fOF ||| fNX else if r.2 then fNX else 0, sat)
  else
    let f := q2gFmt fmt
    let r := f.round md false y
    if r.2 &&& fOF ≠ 0 then (f.signed x.neg f.maxBits, r.2, true) else (r.1, r.2, false)

/-- A block: scale byte, elements, flags, saturation; `rnd` gives the mode of an element from its index and f32 bits. -/
def q2gQuant (fmt : Nat) (rnd : Nat → Nat → Mode) (xs : List Nat) : Nat × List Nat × FFlags × Bool :=
  let vals := xs.map f32.value
  if vals.any (fun v => match v with | .num _ => false | _ => true) then (255, xs.map (fun _ => 0), fNV, false)
  else
    let nums := vals.map (fun v => match v with | .num d => d | _ => Dy.zero false)
    let sc : Nat := match (nums.filter (fun d => d.m != 0)).map (fun d => d.log2) with
      | [] => 0
      | a :: rest => (min (max (rest.foldl max a - q2gEmax fmt + 127) 0) 254).toNat
    let es := (nums.zip xs).zipIdx.map (fun x => q2gElem fmt (rnd x.2 x.1.2) x.1.1 sc)
    (sc, es.map (·.1), es.foldl (fun f e => f ||| e.2.1) 0, es.any (·.2.2))

/-- Rounding of an element of a Q2G: RNE, or SR with the word drawn for its destination bit address (R241). -/
def Copy.q2gMode (c : Copy) (s : State) (bitAddr x : Nat) : Mode :=
  if cbF c.cb 3 24 24 = 1 then
    let key := s.rngKey c.gk
    let blk := chacha8 (key.set 0 (~~~(key.getD 0 0))) (BitVec.ofNat 64 (0xFFFFFFFF * 2 ^ 32 + x)) (BitVec.ofNat 64 bitAddr)
    { md := .sr, w := (blk.getD 0 0).toNat }
  else .rne

/-- Where block b of row `m` of a Q2G goes: its bytes and its scale byte (R241). -/
def Copy.q2gPlace (c : Copy) (m b : Nat) : Nat × Nat :=
  let ga := cbAddr c.cb 0 + m * cbPitch c.fn c.cb
  (ga + b * q2gBlock c.cb * fmtBits (cbFmt c.fn c.cb) / 8,
   cbAddr c.cb 0 + cbRows c.fn c.cb * cbPitch c.fn c.cb + m * (cbN c.fn c.cb / q2gBlock c.cb) + b)

/-- Delivers block b of row `m` of a Q2G: its source is read and its bytes and scale byte are translated before any byte of it
is written. -/
def Copy.q2gBlockRun (c : Copy) (t : Team) (r : Run) (m b : Nat) : Run :=
  let bs := q2gBlock c.cb
  let fmt := cbFmt c.fn c.cb
  let bits := fmtBits fmt
  let row := cbM0 c.cb + m
  let cols := (List.range bs).map (fun i => cbN0 c.fn c.cb + b * bs + i)
  let ga := cbAddr c.cb 0 + m * cbPitch c.fn c.cb
  let (dst, sca) := c.q2gPlace m b
  if cols.any (fun q => r.s.accBad t row q) then { r with halt := some (.stop stPOISON) }
  else
    let r1 := (r.target c dst (bs * bits / 8) .write).target c sca 1 .write
    if r1.halt.isSome then r1
    else
      let q := q2gQuant fmt (fun i x => c.q2gMode r.s (8 * ga + (b * bs + i) * bits) x) (cols.map (fun q => r.s.accVal t row q))
      let v := q.2.1.zipIdx.foldl (fun acc x => acc + x.1 * 2 ^ (bits * x.2)) 0
      let r2 := (r1.put c dst (toBytes (bs * bits / 8) v)).put c sca [BitVec.ofNat 8 q.1]
      { r2 with bytes := r2.bytes + 4 * bs, fl := r2.fl ||| q.2.2.1, sat := r2.sat || q.2.2.2 }

/-! ## Drains (R253, R254) -/

/-- What a drain writes for an element x over the destination's old value, with its flags. -/
def drainValue (fn : CopyFn) (x old : Nat) : Nat × FFlags :=
  match fn with
  | .drainAddF32 => f32.add false false old x
  | .drainAddI32 => let v := toInteger 32 true .rne (f32.value x); ((old + v.1) % 2 ^ 32, v.2)
  | .drainAddI64 => let v := toInteger 64 true .rne (f32.value x); ((old + v.1) % 2 ^ 64, v.2)
  | _ => (x, 0)

/-- Address of element (m, q) of the region of a drain. -/
def Copy.drainPlace (c : Copy) (m q : Nat) : Nat := cbAddr c.cb 0 + m * cbPitch c.fn c.cb + q * c.fn.drainBytes

/-- An add-on-store form (R253). -/
def CopyFn.isAdd (f : CopyFn) : Bool := f == .drainAddF32 || f == .drainAddI32 || f == .drainAddI64

/-- Delivers element (m, q) of the region of a drain (R253). -/
def Copy.drainElem (c : Copy) (t : Team) (r : Run) (m q : Nat) : Run :=
  if r.s.accBad t (cbM0 c.cb + m) (cbN0 c.fn c.cb + q) then { r with halt := some (.stop stPOISON) }
  else
    let y := r.put c (c.drainPlace m q) (toBytes 4 (r.s.accVal t (cbM0 c.cb + m) (cbN0 c.fn c.cb + q)))
    if y.halt.isSome then y else { y with bytes := y.bytes + 4 }

/-- Delivers the elements of an add-on-store that lie in one line: all of them, or none where one is poisoned, there or in the accumulator
(R252, R254, R255). What the copy itself has added stands before. -/
def Copy.addLine (c : Copy) (t : Team) (r : Run) (els : List (Nat × Nat)) : Run :=
  let es := c.fn.drainBytes
  let a : Agent := .engine c.die c.core
  match els with
  | [] => r
  | (m0, q0) :: _ =>
    let n := els.length * es
    if els.any (fun x => r.s.accBad t (cbM0 c.cb + x.1) (cbN0 c.fn c.cb + x.2)) then { r with halt := some (.stop stPOISON) }
    else
      match r.s.engXlat c (c.drainPlace m0 q0) .atomic with
      | (.inl h, s1) => { r with s := s1, halt := some h }
      | (.inr pa, s1) =>
        if s1.readShut pa n || s1.forcedShut (pa / 128) a then { r with s := s1, halt := some (.held pa n) }
        else if s1.poisoned pa n then { r with s := s1, halt := some (.stop stPOISON) }
        else
          let s2 := s1.forced (pa / 128) a
          let old (x : Nat) : Byte := ((r.cells.filter (fun y => y.1 == x)).getLast?.map (·.2)).getD (s2.byteFor a x)
          els.zipIdx.foldl (fun x e =>
            let p := pa + e.2 * es
            let v := drainValue c.fn (s2.accVal t (cbM0 c.cb + e.1.1) (cbN0 c.fn c.cb + e.1.2)) (valAt old p es)
            { x with bytes := x.bytes + es, fl := x.fl ||| v.2, cells := x.cells ++ (toBytes es v.1).zipIdx.map (fun bi => (p + bi.2, bi.1)) })
            { r with s := s2 }

/-! ## A copy as a whole -/

/-- A step of a copy's row order: a piece of a plain move, a line of array memory of A2G, a unit of G2AX, an A row of G2RX, a block of Q2G, an
element of a drain, the elements of an add-on-store in one line. -/
inductive CStep where
  | piece (src dst : Loc) (n : Nat)
  | line (i n : Nat)
  | unit (u : Nat)
  | row (m : Nat)
  | block (m b : Nat)
  | elem (m q : Nat)
  | adds (els : List (Nat × Nat))
deriving DecidableEq, Repr

/-- Pairs of a row and a number below `n`, in row order. -/
def rowOrder (rows n : Nat) : List (Nat × Nat) := (List.range rows).flatMap (fun m => (List.range n).map (fun q => (m, q)))

/-- The elements of a region by the lines of their addresses, which rise in row order (R233, R254). -/
def Copy.addLines (c : Copy) (els : List (Nat × Nat)) : List (List (Nat × Nat)) :=
  els.foldr (fun x acc =>
    match acc with
    | (y :: l) :: rest =>
      if c.drainPlace x.1 x.2 / 128 = c.drainPlace y.1 y.2 / 128 then (x :: y :: l) :: rest else [x] :: acc
    | _ => [x] :: acc) []

/-- The steps of a copy in row order (R255); a G2RX that no core serves has none, and a REM goes another way. -/
def Copy.steps (c : Copy) (s : State) : List CStep :=
  match c.fn with
  | .a2g => c.arrayLines.map (fun p => .line p.1 p.2)
  | .g2a | .g2g | .scld => c.moves.map (fun m => .piece m.1 m.2.1 m.2.2)
  | .rem => []
  | .g2ax => (List.range (cbKb c.cb / unitSegs c.cb)).map .unit
  | .g2rx => if s.servedCores c = [] then [] else (List.range (cbRows c.fn c.cb)).map .row
  | .q2g => (rowOrder (cbRows c.fn c.cb) (cbN c.fn c.cb / q2gBlock c.cb)).map (fun x => .block x.1 x.2)
  | .drain => (rowOrder (cbRows c.fn c.cb) (cbN c.fn c.cb)).map (fun x => .elem x.1 x.2)
  | .drainAddF32 | .drainAddI32 | .drainAddI64 => (c.addLines (rowOrder (cbRows c.fn c.cb) (cbN c.fn c.cb))).map .adds

/-- Global addresses that a step writes, as pieces in no two lines. -/
def Copy.dests (c : Copy) : CStep → List Nat
  | .piece _ (.glob va) _ => [va]
  | .block m b =>
    let p := c.q2gPlace m b
    (pieces p.1 (q2gBlock c.cb * fmtBits (cbFmt c.fn c.cb) / 8)).map (·.1) ++ [p.2]
  | .elem m q => [c.drainPlace m q]
  | .line i n => (c.arrayDests i n).map (·.1)
  | .adds els => (els.head?.map (fun x => c.drainPlace x.1 x.2)).toList
  | _ => []

/-- Carries one step. -/
def Copy.doStep (c : Copy) (t : Team) (served : List Nat) (r : Run) : CStep → Run
  | .piece src dst n => c.move t r src dst n
  | .unit u => c.axUnit t r u
  | .row m => c.rxRow served r m
  | .block m b => c.q2gBlockRun t r m b
  | .elem m q => c.drainElem t r m q
  | .line i n => c.moveLine t r i n
  | .adds els => c.addLine t r els

/-- What a copy does of its next `n` steps: it halts at the first that it cannot carry (R255). -/
def Copy.carry (c : Copy) (t : Team) (s : State) (n : Nat) : Run :=
  let r : Run := { s := s, taken := c.taken, bytes := c.bytes }
  if c.refused then { r with halt := some (.stop stARRMODE) }
  else
    (((c.steps s).drop c.taken).take n).foldl (fun x st =>
      if x.halt.isSome then x
      else
        let y := c.doStep t (s.servedCores c) x st
        if y.halt.isSome then y else { y with taken := y.taken + 1 }) r

/-- Ends a copy with a status: it leaves the engine, its lines are released and its tag is DONE (R229, R255). What was visible to the engine as
one of the team's agents stays so (R277, R283). -/
def State.endCopy (s : State) (c : Copy) (status bytes : Nat) : State :=
  let s0 := { s with posted := s.posted.map (fun (p : Posted) =>
    if p.gk = c.gk ∧ p.team = c.team ∧ p.scopes.contains 1 then { p with seen := p.seen.filter (· != Agent.engine c.die c.core) ++ [Agent.engine c.die c.core] } else p) }
  let s1 := (s0.modCore c.die c.core (fun k => { k with copies := k.copies.filter (fun x => x.uid != c.uid) })).releaseLines
    c.uid (fun _ => true)
  s1.modWarp c.w (fun w => w.tagDone c.tag status bytes c.uid)

/-- ORs flags into a team's tflags (R109). -/
def State.teamFlags (s : State) (gk idx : Nat) (f : FFlags) (sat : Bool) : State :=
  s.modTeam gk idx (fun t => t.orTflags f sat)

/-- The copy waits for a page: the fault is noted for it (R255, R395). -/
def State.copyWaits (s : State) (c : Copy) (va : Nat) (acc : Access) (m g : Bool) : State :=
  (s.noteFault (mkFault (s.asidOf c.gk) va (if acc = .atomic then .write else acc) 1 c.die c.core m g) (.copy c.uid)).modCopy
    c.uid (fun x => { x with waits := some (bits va 54 16), failed := false })

/-- What becomes of a copy that has to wait before anything of it is done: it waits for a page, or the way is made for what it reads. -/
def State.copyHalts (s : State) (c : Copy) : Halt → State
  | .stop _ => s
  | .wait va acc m g => s.copyWaits c va acc m g
  | .held pa n => s.urgeRead (.engine c.die c.core) pa n
  | .walk va => (s.translate c.die c.core (s.asidOf c.gk) va).2

/-- A copy may run: it has issued, no earlier operation must go before it, and no outstanding fault holds it (R244, R256). -/
def State.copyReady (s : State) (c : Copy) (t : Team) : Bool :=
  !c.pending && !s.blocked c.uid (c.zones t)
    && !s.mmu.faults.any (fun f => f.waiters.contains (.copy c.uid))

/-- Status of a copy that has carried all it can: a G2RX that could not serve every core it names ends FAULT (R240). -/
def Copy.status (c : Copy) (s : State) : Option Halt → Nat
  | some (.stop st) => st
  | _ => if c.fn = .g2rx ∧ (s.servedCores c).length ≠ (g2rxCores c).length then stFAULT else 0

/-- The line in which a copy's address lies, where it can be translated now. -/
def State.destLine (s : State) (c : Copy) (va : Nat) : Option Nat :=
  match (s.engXlat c va .write).1 with
  | .inr pa => some (pa / 128)
  | .inl _ => none

/-- The line of the next step of an add-on-store, where it can be translated now. -/
def State.addTarget (s : State) (c : Copy) : Option Nat :=
  ((((c.steps s).drop c.taken).head?.map c.dests).bind List.head?).bind (s.destLine c)

/-- The home applies the next line of an add-on-store at one point, or has it in the line's queue (R254, R389, R390). The flags of its elements
go to tflags (R109). -/
def State.addNext (s : State) (c : Copy) (t : Team) : State :=
  match s.addTarget c with
  | none => s
  | some line =>
    let q : HomeReq := .addl c.uid
    let out (a : State) : State := a.modLine line (fun r => { r with queue := r.queue.filter (· != q) })
    let r := c.carry t s 1
    match r.halt with
    | some (.held pa n) => s.copyHalts c (.held pa n) |>.joinQueue line q
    | some h => (out s).copyHalts c h
    | none =>
      if !s.lineFor c.uid line ∨ s.refused line q then (s.joinQueue line q).urgeLines c.uid [line]
      else
        let s1 := ((out r.s).engWrite (.engine c.die c.core) c.die false r.cells).modCopy c.uid (fun x => { x with taken := r.taken, bytes := r.bytes })
        s1.teamFlags c.gk c.team r.fl r.sat

/-- Runs a copy to its end (R255): it completes, stops, or waits for a page. Nothing happens where it may not run or where
another engine or a lock holds a destination line. DESIGN CHOICE, log entry 28. -/
def State.finishCopy (s : State) (c : Copy) : State :=
  match s.team? c.gk c.team with
  | none => s.endCopy c stCancel c.bytes
  | some t =>
    if !s.copyReady c t then s
    else
      let r := c.carry t s (c.steps s).length
      let out := c.out ++ r.cells
      let ls := dedup (out.map (fun x => x.1 / 128))
      match r.halt with
      | some (.wait va acc m g) => s.copyHalts c (.wait va acc m g)
      | some (.held pa n) => s.copyHalts c (.held pa n)
      | some (.walk va) => s.copyHalts c (.walk va)
      | h =>
        if ls.any (fun n => !s.lineFor c.uid n) then
          if c.fn.isAdd then s.addNext c t else s.urgeLines c.uid ls
        else
          let s1 := (r.s.engWrite (.engine c.die c.core) c.die (!c.fn.isAdd) out).teamFlags c.gk c.team r.fl r.sat
          s1.endCopy c (c.status s h) r.bytes

/-! ## Lines of a copy: OWN, WRF, ADDL, RECALL (R254, R390, R411, R414) -/

/-- Steps from where a copy stands to the last that writes in a line; none where no step to come writes there. -/
def State.stepsTo (s : State) (c : Copy) (line : Nat) : Nat :=
  let rest := (c.steps s).drop c.taken
  match (rest.flatMap c.dests).find? (fun va => s.destLine c va == some line) with
  | none => 0
  | some va => rest.zipIdx.foldl (fun n x => if (c.dests x.1).any (fun a => a / 128 == va / 128) then x.2 + 1 else n) 0

/-- The first line in row order that a copy has to own yet: one that it has bytes for, else the next where it can be translated now (R390). -/
def State.nextOwn (s : State) (c : Copy) : Option Nat :=
  (c.dueLines.find? (fun n => !c.owned.contains n)).or <| (((c.steps s).drop c.taken).flatMap c.dests).findSome? (fun va =>
    match s.destLine c va with
    | some n => if c.owned.contains n then none else some (some n)
    | none => some none) |>.join

/-- OWN: the home grants a destination line to one engine at a time, in arrival order; each copy takes its lines in row order and holds
at most 32 (R390). A request that finds the line taken waits in its queue (R414). Transactions that hold the line in their sets abort
(R289). -/
def execOwn (u line : Nat) (s : State) : Out :=
  match s.copy? u with
  | none => .next s
  | some c =>
    let r := s.line line
    if c.pending ∨ c.refused ∨ c.fn.isAdd ∨ 32 ≤ c.owned.length ∨ s.nextOwn c ≠ some line then .next s
    else if !r.isOpen ∨ !s.inTurn line (.own u) ∨ s.refused line (.own u) then .next (s.joinQueue line (.own u))
    else
      let s1 := (s.allWarps.map (fun w => w.uid)).foldl (fun a w =>
        match a.warp? w with
        | none => a
        | some x => ((List.range x.width).filter (fun L => (x.lane L).txActive &&
            ((x.lane L).tx.rlines.contains line || (x.lane L).tx.wlines.contains line))).foldl (fun b L => b.abortTx w L cConflict) a) s
      .next ((s1.modLine line (fun r => { r with engine := some u, recalled := false, queue := r.queue.filter (· != .own u) })).modCopy
        u (fun x => { x with owned := setPut x.owned line }))

/-- A copy keeps what a run has read, writes one line of it and releases that line. -/
def Run.writeLine (r : Run) (c : Copy) (line : Nat) : State :=
  let out := c.out ++ r.cells
  let s1 := (r.s.engWrite (.engine c.die c.core) c.die true (out.filter (fun x => x.1 / 128 == line))).modCopy c.uid (fun x =>
    { x with taken := r.taken, bytes := r.bytes, out := out.filter (fun x => x.1 / 128 != line), owned := setDel x.owned line })
  (s1.teamFlags c.gk c.team r.fl r.sat).releaseLines c.uid (fun l => l == line)

/-- A copy gives a line up that it owns: no byte of it has been written, and it asks for the line again when it comes to it. -/
def State.disown (s : State) (c : Copy) (line : Nat) : State :=
  (s.modCopy c.uid (fun x => { x with owned := setDel x.owned line })).releaseLines c.uid (fun l => l == line)

/-- A shootdown is under way that may have removed the translation through which a copy owns its lines (R396). -/
def State.copyShot (s : State) (c : Copy) : Bool :=
  match s.mmu.sdNow with
  | some (op, _, asid) => op == 2 || s.asidOf c.gk == asid
  | none => false

/-- A copy cannot fill a line that it owns now. Where an access or a shootdown waits for the line, it writes the bytes that it has read for
it, or gives the line up until it comes to it again (R297, R396, R401, R414; DEDUCED, log entry 76). -/
def State.yieldLine (s : State) (c : Copy) (line : Nat) : State :=
  if !(s.line line).recalled ∧ !s.copyShot c then s
  else if c.out.any (fun x => x.1 / 128 == line) then Run.writeLine { s := s, taken := c.taken, bytes := c.bytes } c line
  else s.disown c line

/-- WRF: the owner's bytes of the line are written at the home, and the line is released (R411). What comes before them in row order has been
read too, and a later stop writes it (R255, R288; DESIGN CHOICE, log entry 28). -/
def execWrf (u line : Nat) (s : State) : Out :=
  match s.copy? u with
  | none => .next s
  | some c =>
    if (s.line line).engine ≠ some u ∨ c.fn.isAdd then .next s
    else if !s.lineFor u line then .next (s.urgeLines u [line])
    else
      match s.team? c.gk c.team with
      | none => .next s
      | some t =>
        if !s.copyReady c t then .next (s.yieldLine c line)
        else
          let r := c.carry t s (s.stepsTo c line)
          match r.halt with
          | some h =>
            let s1 := s.copyHalts c h
            .next ((s1.copy? u).elim s1 (fun x => s1.yieldLine x line))
          | none =>
            if (c.out ++ r.cells).any (fun x => x.1 / 128 == line) then .next (r.writeLine c line) else .next (s.yieldLine c line)

/-- ADDL: the next add-on-store line in row order is applied at one point; it needs no ownership (R254, R389, R390). -/
def execAddl (u line : Nat) (s : State) : Out :=
  match s.copy? u with
  | none => .next s
  | some c =>
    match s.team? c.gk c.team with
    | none => .next s
    | some t => .next (if !c.fn.isAdd ∨ !s.copyReady c t ∨ s.addTarget c ≠ some line then s else s.addNext c t)

/-- RECALL: the owning engine writes the named line next, and so releases it (R414). -/
def execRecall (line : Nat) (s : State) : Out :=
  match (s.line line).engine with
  | none => .next s
  | some u => execWrf u line s

end Sys2Proof.Machine
end

