-- ==== Sys2Proof/Machine/ArrayOps.lean ====
section
/-! DEFINITION. The array at work: steps, rows and completion of an MMUL (R117 to R120, R251, R252, R316 to R321), and the
points of the mode instances (R246 to R248, R325 to R328). -/
namespace Sys2Proof.Machine

open Sys2Proof

/-! ## Operands of an MMUL -/

/-- Byte of the row buffer at which A row MA0 + j starts (R240, R316). -/
def MOp.rowAt (o : MOp) (j : Nat) : Nat := 4096 * o.rbase + (o.ma0 + j) * rowBytes (fmtWidth o.afmt) o.kb

/-- Plane i of A row j, restricted to `len` elements from element k0: bit k of the result is bit i of element k0 + k (R316). -/
def MOp.plane (o : MOp) (c : Core) (j i k0 len : Nat) : Nat :=
  (c.rowBuf.val (o.rowAt j + i * 6 * o.kb + k0 / 8) (len / 8)) % 2 ^ len

/-- Some granule of the row buffer that elements k0 to k0 + len - 1 of A row j use is poisoned (R252, R327). -/
def MOp.rowBad (o : MOp) (c : Core) (j k0 len : Nat) : Bool :=
  (List.range (fmtWidth o.afmt)).any (fun i => touchesPoison c.rowBuf.poison (o.rowAt j + i * 6 * o.kb + k0 / 8) (len / 8))

/-- A granule of a macro was struck during the compute residence: its check would fail, and the scrub has not recorded it (R328). -/
def Core.struck (c : Core) (off : Nat) : Bool :=
  let u := c.units.getD (off / 12288) CimUnit.init
  let g := off % 12288 / 8
  u.soft.contains g || u.ldaErr.contains g || (c.arrPoison.contains (off / 8) && !u.scrubbed.contains g)

/-- The byte that charge sharing reads, without ECC (R328). -/
def Core.cellByte (c : Core) (off : Nat) : Byte :=
  if c.struck off then Config.struckByte ((c.units.getD (off / 12288) CimUnit.init).seed) (off % 12288) else c.arrayByte off

/-- Bit column j of element column col, over the 48 rows of array segment seg: bit k for row k (R314). -/
def Core.slice (c : Core) (seg w col j : Nat) : Nat :=
  let b := col * w + j
  let base := 12288 * (5 * (seg / 8) + b / 256) + 32 * (48 * (seg % 8)) + b % 256 / 8
  (List.range 48).foldl (fun n k => if (c.cellByte (base + 32 * k)).getLsbD (b % 8) then n + 2 ^ k else n) 0

/-- Some granule of B that the element reads in a segment is one that the scrub recorded as poisoned (R252, R327). -/
def Core.sliceBad (c : Core) (seg w col : Nat) : Bool :=
  (List.range w).any (fun j =>
    let b := col * w + j
    let p := 5 * (seg / 8) + b / 256
    let bad := (c.units.getD p CimUnit.init).scrubbed
    bad ≠ [] && (List.range 48).any (fun k => bad.contains ((32 * (48 * (seg % 8)) + b % 256 / 8 + 32 * k) / 8)))

/-- Ones in a number of `n` bits. -/
def popc (n x : Nat) : Nat := ((List.range n).filter (fun i => x.testBit i)).length

/-- Weight of bit i of a signed integer of width w: its sign times 2^i (R117). -/
def bitWeight (w i : Nat) : Int := if i + 1 = w then -(2 ^ i : Nat) else (2 ^ i : Nat)

/-- The product of a segment from its planes and slices: the sum over i and j of signed weight times count (R117). -/
def planeSum (wa wb : Nat) (cnt : Nat → Nat → Int) : Int :=
  (List.range wa).foldl (fun t i => (List.range wb).foldl (fun u j => u + bitWeight wa i * bitWeight wb j * cnt i j) t) 0

/-- An effective exponent of scale memory (R242). -/
def Core.scaleE (c : Core) (a : Nat) : BitVec 16 := BitVec.ofNat 16 (c.scale.val a 2)

/-- Byte of EA of A row m and segment s, and of EB of segment s and local column n (R242). -/
def eaAt (m s : Nat) : Nat := 2 * (m * 64 + s)
/-- EB. -/
def ebAt (s n : Nat) : Nat := 0xC000 + 2 * (s * 320 + n)

/-! ## Elements (R118, R119) -/

/-- Adds a term to an f32 accumulator, with one rounding (R118): a NaN on either side gives the canonical NaN and NV. -/
def accAdd (acc : Enc) (term : Option Dy) : Enc :=
  match term, f32.value acc.1 with
  | none, _ => (f32.nanBits, acc.2 ||| fNV)
  | _, .nan _ => (f32.nanBits, acc.2 ||| fNV)
  | some x, v => let r := f32.finish false (FV.sum [v, .num x]); (r.1, acc.2 ||| r.2)

/-- A number times 2^(EA + EB), none for the NaN mark (R116, R118). -/
def scaledTerm (p q : Int) (ea eb : BitVec 16) : Option Dy :=
  if ea = 0x8000 ∨ eb = 0x8000 then none else some (.ofInt p (q + ea.toInt + eb.toInt))

/-- A failed conversion of block `seg` marks the element at a column: it uses a bit column of the macro (R319). -/
def MOp.failHits (o : MOp) (t : Team) (j q seg : Nat) : Bool :=
  let cc := t.column (o.n0 + q)
  let off := if cc.1 = t.core then 0 else 40
  let w := fmtWidth o.bfmt
  o.fails.any (fun f => f.1 == j && f.2.2 == seg &&
    (List.range w).any (fun b => f.2.1 == off + 5 * (seg / 8) + (cc.2 * w + b) / 256))

/-- Sum of the rep codes of one estimate in AP mode for count c with n ones in the plane: free within the bounds of R120
while the calibration of the core that converts holds, else free among all codes (R119, R324, DESIGN CHOICE, log entry 6). -/
def apCodes (rep c n seed : Nat) (bound : Bool) : Nat :=
  let lo := if bound then (rep * (20 * c) + 60 - 1 - min (rep * (n + 60)) (rep * (20 * c) + 59)) / 60 else 0
  let hi := if bound then min (127 * rep) (rep * (20 * c + n) / 60) else 127 * rep
  lo + Config.apDither seed % (hi - lo + 1)

/-- One output element of row j, column q: its value and flags, and whether poison made it NaN. `seed` names its AP dither. -/
def State.mmulElem (s : State) (t : Team) (o : MOp) (j q seed : Nat) : Enc × Bool :=
  let lead := s.core t.die t.core
  let cc := t.column (o.n0 + q)
  let c := s.core t.die cc.1
  let wa := fmtWidth o.afmt
  let wb := fmtWidth o.bfmt
  let step := if o.rep = 0 then 1 else 8
  let ins : Bool := lead.scale.poison ≠ [] || c.scale.poison ≠ []
  let blks := (List.range (o.kb / step)).map (· * step)
  let bad := (o.acc && s.accBad t (o.mc0 + j) (o.n0 + q)) || blks.any (fun b =>
    o.rowBad lead j (48 * b) (48 * step) || (List.range step).any (fun i => c.sliceBad (o.seg0 + b + i) wb cc.2)
      || (ins && (lead.scale.poison.contains (eaAt (o.ma0 + j) b / 8) || c.scale.poison.contains (ebAt (o.seg0 + b) cc.2 / 8))))
  if bad then ((f32.nanBits, 0), true)
  else if blks.any (fun b => o.failHits t j q (o.seg0 + b)) then ((f32.nanBits, 0), false)
  else
    let acc0 : Enc := (if o.acc then s.accVal t (o.mc0 + j) (o.n0 + q) else 0, 0)
    (blks.foldl (fun a b =>
      let ea := lead.scaleE (eaAt (o.ma0 + j) b)
      let eb := c.scaleE (ebAt (o.seg0 + b) cc.2)
      let cnt (i jj : Nat) : Nat := (List.range step).foldl (fun n u =>
        n + popc 48 (o.plane lead j i (48 * (b + u)) 48 &&& c.slice (o.seg0 + b + u) wb cc.2 jj)) 0
      if o.rep = 0 then accAdd a (scaledTerm (planeSum wa wb (fun i jj => cnt i jj)) 0 ea eb)
      else
        let ones (i : Nat) : Nat := popc 384 (o.plane lead j i (48 * b) 384)
        let est (i jj : Nat) : Int :=
          ((6 * apCodes o.rep (cnt i jj) (ones i) (seed + ((b * wa + i) * wb + jj)) (!c.bandOut) + 3 * o.rep : Nat) : Int)
        accAdd a (scaledTerm (planeSum wa wb est) (-(1 + Nat.log2 o.rep : Nat)) ea eb)) acc0, false)

/-- Free values an element of an AP-mode MMUL takes. -/
def MOp.draws (o : MOp) : Nat := if o.rep = 0 then 0 else 8 * 64 * 64

/-- Writes output row j (R251). -/
def State.mmulRow (s : State) (t : Team) (o : MOp) (j : Nat) : State × MOp :=
  (List.range o.n).foldl (fun x q =>
    let e := x.1.mmulElem t o j q x.1.free
    let s1 := (x.1.setAcc t (o.mc0 + j) (o.n0 + q) (BitVec.ofNat 32 e.1.1) o.acc).teamFlags o.gk o.team e.1.2 false
    ({ s1 with free := s1.free + o.draws }, { x.2 with pois := x.2.pois || e.2 })) (s, o)

/-! ## Steps (R316 to R321) -/

/-- Step time in cycles (R252). -/
def stepTime (rep : Nat) : Nat := if rep = 0 then 16 else 2 * rep

/-- MMUL_START: the oldest queued MMUL begins once the previous one has ended and R244 lets it read. -/
def State.startMmul (s : State) (d k : Nat) : State :=
  let c := s.core d k
  match c.run, c.mq with
  | none, o :: rest =>
    match s.team? o.gk o.team with
    | none => s
    | some t =>
      if s.blocked o.uid (o.zones t) then s
      else
        let s1 := s.modCore d k (fun c => { c with run := some o, mq := rest })
        (t.tileMacros o.seg0 o.kb o.n0 o.n (fmtWidth o.bfmt)).foldl (fun a x =>
          a.modCore t.die x.1 (fun c => { c with units := c.units.modify x.2 (fun u => { u with readers := u.readers ++ [(o.w, o.uid)] }) })) s1
  | _, _ => s

/-- The conversions that a step makes of the failing ones named: those of the MMUL's macros and segments, in EX mode. Macros 40
to 79 are those of a follower core. DESIGN CHOICE, log entry 30. -/
def MOp.stepFails (o : MOp) (t : Team) (fails : List WitnessFail) : List WitnessFail :=
  if o.rep ≠ 0 then []
  else
    let ms := t.tileMacros o.seg0 o.kb o.n0 o.n (fmtWidth o.bfmt)
    fails.filter (fun f => decide (0 < f.attempts) && decide (f.seg < 8) &&
      ms.contains (if f.p < 40 then t.core else t.core + 1, f.p % 40) && decide (f.p < 80) &&
      decide (o.seg0 ≤ 8 * (f.p % 40 / 5) + f.seg) && decide (8 * (f.p % 40 / 5) + f.seg < o.seg0 + o.kb))

/-- ARRAY_STEP: one plane of one A row. A conversion that fails is repeated at most twice; one that fails three times is
reported and marks its elements (R318, R319), and the MMUL waits until its core has reported it (R444). The last plane of a row writes the
row. -/
def State.stepMmul (s : State) (d k : Nat) (fails : List WitnessFail) : State :=
  match (s.core d k).run with
  | none => s
  | some o =>
    match s.team? o.gk o.team with
    | none => s
    | some t =>
      let wa := fmtWidth o.afmt
      if o.m * wa ≤ o.steps ∨ t.cores.any (s.mustReport d) then s
      else
        let j := o.steps / wa
        let fs := o.stepFails t fails
        let n := fs.foldl (fun a f => a + min f.attempts 2) 0
        let dead := fs.filter (fun f => decide (3 ≤ f.attempts))
        let s1 := dead.foldl (fun a f =>
          let seg := 8 * (f.p % 40 / 5) + f.seg
          a.report (a.mkErr 0x07 5 d (if f.p < 40 then t.core else t.core + 1) (a.gridId o.gk) (BitVec.ofNat 32 o.team)
            (BitVec.ofNat 32 (o.tag + (f.p % 40) * 2 ^ 8 + seg * 2 ^ 16)) 0)) (s.passCycles d (stepTime o.rep + 4 * n))
        let o1 := { o with
          steps := o.steps + 1, retries := o.retries + n
          fails := o.fails ++ dead.map (fun f => (j, f.p, 8 * (f.p % 40 / 5) + f.seg)) }
        let x := if o1.steps % wa = 0 then s1.mmulRow t o1 j else (s1, o1)
        x.1.modCore d k (fun c => { c with run := some x.2 })

/-- Takes every step that is left. -/
def State.stepsLeft (s : State) (d k : Nat) : Nat → State
  | 0 => s
  | n + 1 => (s.stepMmul d k []).stepsLeft d k n

/-- MMUL_COMPLETE: the steps that are left are taken, its records find their place (R444), and after 24 cycles more the tag completes with the highest of POISON,
CIMERR and OK (R252, R321). -/
def State.endMmul (s : State) (d k : Nat) : State :=
  match (s.core d k).run with
  | none => s
  | some o =>
    let s1 := s.stepsLeft d k (o.m * fmtWidth o.afmt - o.steps)
    match (s1.core d k).run with
    | none => s1
    | some o1 =>
      if o1.steps < o1.m * fmtWidth o1.afmt ∨ (s1.team? o1.gk o1.team).any (fun t => t.cores.any (s1.mustReport d)) then s1
      else
      let st := if o1.pois then stPOISON else if o1.fails ≠ [] then stCIMERR else 0
      ((s1.passCycles d 24).modCore d k (fun c => { c with run := none })).modWarp o1.w (fun w => w.tagDone o1.tag st 0 o1.uid)

/-- MMUL_START. -/
def execMmulStart (d k : Nat) (s : State) : Out := .next (s.startMmul d k)
/-- ARRAY_STEP. -/
def execArrayStep (d k : Nat) (fails : List WitnessFail) (s : State) : Out := .next (s.stepMmul d k fails)
/-- MMUL_COMPLETE. -/
def execMmulComplete (d k : Nat) (s : State) : Out := .next (s.endMmul d k)

/-! ## Mode instances (R246 to R248, R325 to R328) -/

/-- Changes every macro of a team that has a mode. -/
def State.modMacros (s : State) (t : Team) (m : Resid) (f : Core → Nat → CimUnit → CimUnit) : State :=
  t.cores.foldl (fun a k => a.modCore t.die k (fun c =>
    { c with units := c.units.mapIdx (fun p u => if u.owner = some (t.gk, t.idx) ∧ u.mode = m then f c p u else u) })) s

/-- Some warp has an STA to a macro of a team that has issued and not performed. -/
def State.staDue (s : State) (t : Team) : Bool :=
  s.allWarps.any (fun w => (w.sent ++ (match w.window with | some v => v.buf | none => [])).any (fun x =>
    match x.space with
    | .array d k => d == t.die && t.cores.contains k
        && (((s.core d k).units.getD (x.addr / 12288) CimUnit.init).owner == some (t.gk, t.idx))
    | .global => false))

/-- MMODE_C_MODE_POINT: the awaited copies have finished; the scrub corrects what it can and records the rest, and the macros
in storage mode enter compute residence (R246, R326, R327). An STA that has issued without a trap performs first (R199, R291; DEDUCED, log
entry 65). -/
def State.modePointC (s : State) (gk idx : Nat) : State :=
  match s.team? gk idx with
  | none => s
  | some t =>
    match t.mode with
    | .cWait l =>
      if l.any (fun u => (s.copy? u).isSome) || s.staDue t then s
      else
        let s1 := (s.macros t).foldl (fun a x =>
          if x.2.2.mode = .storage then a.countCorr t.die x.1 6 x.2.2.soft.length else a) s
        let s2 := s1.modMacros t .storage (fun c p u =>
          { u with mode := .compute, soft := [], ldaErr := [], readers := []
                   scrubbed := (c.arrPoison.filter (fun g => g / 1536 == p)).map (· % 1536) })
        s2.modTeam gk idx (fun x => { x with mode := .cStart })
    | _ => s

/-- MMODE_C_UNPARK: 384 cycles of scrub and 4 for each macro after the first; then the arrived entries unpark (R326). -/
def State.modeUnparkC (s : State) (gk idx : Nat) : State :=
  match s.team? gk idx with
  | none => s
  | some t =>
    match t.mode with
    | .cStart => (s.passCycles t.die (384 + 4 * (t.units - 1))).unparkMode t
    | _ => s

/-- A tag that an MMUL of a residence completed changes to SUSPECT, wherever it still stands (R247). -/
def Warp.suspect (w : Warp) (uids : List Nat) : Warp :=
  let f (l : List TagSt) : List TagSt := l.map (fun x => match x with
    | .done st b op => if uids.contains op then .done stSUSPECT b op else .done st b op
    | y => y)
  let sv (x : Save) : Save := { x with tags := f x.tags }
  { w with tags := f w.tags, window := w.window.map (fun x => { x with save := sv x.save, points := x.points.map sv }) }

/-- MMODE_S_VERIFY: once no MMUL of the team is queued or running, every resident macro is verified, errors are reported and
mark SUSPECT, and the macros return to storage mode; the lanes go on once every record has its place (R247, R328, R444). -/
def State.modeVerifyS (s : State) (gk idx : Nat) : State :=
  match s.team? gk idx with
  | none => s
  | some t =>
    if t.mode == .sDone then (if t.cores.any (s.mustReport t.die) then s else s.unparkMode t)
    else if t.mode != .sWait || t.cores.any (fun k => ((s.core t.die k).mq ++ (s.core t.die k).run.toList).any (fun o =>
        o.gk == gk && o.team == idx)) then s
    else
      let s1 := s.passCycles t.die 384
      let res := (s1.macros t).filter (fun x => x.2.2.mode == .compute)
      let wrong := res.filter (fun x => (s1.core t.die x.1).verifyErrs x.2.1 x.2.2 != [])
      let s2 := res.foldl (fun a x => a.reportSuspect t x.1 x.2.1 x.2.2) s1
      let s3 := (wrong.flatMap (fun x => x.2.2.readers)).foldl (fun a r => a.modWarp r.1 (fun w => w.suspect [r.2])) s2
      let s4 := s3.modMacros t .compute (fun _ _ u => { u with mode := .storage, scrubbed := [], ldaErr := [], readers := [] })
      if t.cores.any (s4.mustReport t.die) then s4.modTeam gk idx (fun x => { x with mode := .sDone }) else s4.unparkMode t

/-- MCAL_COMPLETE: 20,000 cycles of calibration; macros named in `bad`, 40 to 79 for a follower core, fail the self-test, which fails the
team (R248, R323, R443; DESIGN CHOICE, log entry 30). -/
def State.calDone (s : State) (gk idx : Nat) (bad : List Nat) : State :=
  match s.team? gk idx with
  | none => s
  | some t =>
    if t.mode != .cal ∨ t.due.isSome then s
    else
      let s1 := s.passCycles t.die 20000
      if bad.any (fun p => (s1.macros t).any (fun x => x.2.1 + (if x.1 = t.core then 0 else 40) == p)) then
        s1.failTeam gk idx cMCHECK t.die t.core 0 []
      else
        (t.cores.foldl (fun a k => a.modCore t.die k (fun c => { c with calTemp := c.temp, bandOut := false })) s1).unparkMode t

/-- MMODE_C_MODE_POINT. -/
def execMmodeCModePoint (gk idx : Nat) (s : State) : Out := .next (s.modePointC gk idx)
/-- MMODE_C_UNPARK. -/
def execMmodeCUnpark (gk idx : Nat) (s : State) : Out := .next (s.modeUnparkC gk idx)
/-- MMODE_S_VERIFY. -/
def execMmodeSVerify (gk idx : Nat) (s : State) : Out := .next (s.modeVerifyS gk idx)
/-- MCAL_COMPLETE. -/
def execMcalComplete (gk idx : Nat) (bad : List Nat) (s : State) : Out := .next (s.calDone gk idx bad)

end Sys2Proof.Machine
end

