-- ==== Sys2Proof/Machine/Remote.lean ====
section
/-! DEFINITION. REM copies and the Smine Remote transport (R237, R434 to R440), and COPY_COMPLETE. -/
namespace Sys2Proof.Machine

open Sys2Proof

/-! ## Lines of an address space -/

/-- LINES, OP and DEV of a REM (R237). -/
def remLines (cb : List Word) : Nat := cbF cb 3 31 22 + 1
/-- OP. -/
def remOp (cb : List Word) : Nat := cbF cb 3 21 19
/-- DEV. -/
def remDev (cb : List Word) : Nat := cbF cb 3 18 0

/-- What reaching a line for a remote request gives. -/
inductive LineRes where
  | ok (pa : Nat)
  | fail (cause : RemCause)
  | wait (malformed mig : Bool)
  /-- The line, or a word of the tables, cannot be used yet (R390, R394, R410, R422). -/
  | held
deriving DecidableEq, Repr

/-- The permission that a line of an OP needs on the remote device: reading for a GET, writing for a PUT or an ADD.i64 (R439). -/
def opAccess (op : Nat) : Access := if op = 1 then .read else .write

/-- Reaches a line of an address space on behalf of a remote request of an OP of R237: translation, permission, poison of what is read, and a
line that is free for what is written (R436, R439, R440). The remote transport translates through the L2 TLB of die 0 (DEDUCED, log entry
60). -/
def State.remoteLine (s : State) (asid va op : Nat) : LineRes × State :=
  if bits va 63 55 ≠ 0 then (.fail .remoteFault, s)
  else
    match s.translateL2 0 asid va with
    | (.fault m g, s1) => (.wait m g, s1)
    | (.held, s1) => (.held, s1)
    | (.backing, s1) => (.fail .remoteFault, s1)
    | (.ok pa e, s1) =>
      if e.io || (e.refuses (opAccess op)).isSome then (.fail .permission, s1)
      else if op != 0 && s1.agentShut .remote pa 128 then (.held, s1.urgeRead .remote pa 128)
      else if op != 0 && s1.poisoned pa 128 then (.fail .poison, s1)
      else if op != 1 && s1.writerShut (pa / 128) then (.held, s1.urge pa 128 true)
      else (.ok pa, s1)

/-- The bytes of a line as the transport reads them, and the state with the posted stores published that it follows (R287). -/
def State.remoteRead (s : State) (pa : Nat) : List Byte × State :=
  let s1 := s.forced (pa / 128) .remote
  (bytesAt (s1.byteFor .remote) pa 128, s1)

/-- The sum of two lines, by words of 8 bytes (R237). -/
def addLines (a b : List Byte) : List Byte :=
  (List.range 16).flatMap (fun i => toBytes 8 (leNat ((a.drop (8 * i)).take 8) + leNat ((b.drop (8 * i)).take 8)))

/-- Writes a line, or adds to it, at one point (R280, R439). -/
def State.remoteWrite (s : State) (add : Bool) (pa : Nat) (data : List Byte) : State :=
  let r := s.remoteRead pa
  let put (a : State) (bs : List Byte) : State := a.engWrite .remote 0 true (bs.zipIdx.map (fun bi => (pa + bi.2, bi.1)))
  if add then put r.2 (addLines r.1 data) else put s data

/-! ## Frames (R437) -/

/-- One byte of a CRC-32C, with the polynomial's bits reversed. -/
def crcByte (c : Word) (b : Byte) : Word :=
  (List.range 8).foldl (fun a _ => if a.getLsbD 0 then (a >>> 1) ^^^ 0x82F63B78 else a >>> 1) (c ^^^ b.setWidth 32)

/-- CRC-32C of a byte string, which R437 names by its name alone. DESIGN CHOICE, log entry 53. -/
def crc32c (bs : List Byte) : Word := ~~~ bs.foldl crcByte 0xFFFFFFFF

/-- Version of a frame. -/
def frameVersion (f : Frame) : Nat := bits f.vk.toNat 7 4
/-- Kind of a frame. -/
def frameKind (f : Frame) : Nat := bits f.vk.toNat 3 0

/-- The 40 bytes of the header, each field with its low byte first (R437; DESIGN CHOICE, log entry 53). -/
def frameHeader (f : Frame) : List Byte :=
  [f.vk, f.lines] ++ toBytes 2 f.rsv2.toNat ++ toBytes 4 f.src.toNat ++ toBytes 4 f.dst.toNat ++ toBytes 4 f.seq.toNat
    ++ toBytes 4 f.cack.toNat ++ toBytes 4 f.sack.toNat ++ toBytes 8 f.ra.toNat ++ toBytes 4 f.xfer.toNat ++ toBytes 2 f.asid.toNat
    ++ toBytes 2 f.rsv26.toNat

/-- The CRC-32C that belongs to a frame: over its header and payload. -/
def frameSum (f : Frame) : Word := crc32c (frameHeader f ++ f.payload)

/-- A frame that a receiver does not discard for its form (R437): the EtherType, the version and the kind, reserved values of zero, the lines
that its kind carries, and the CRC-32C. -/
def frameSound (f : Frame) (kind : Nat) : Bool :=
  f.etherType == 0x8A7E && frameVersion f == 1 && frameKind f == kind && f.rsv2 == 0 && f.rsv26 == 0
    && decide (f.src.toNat < 2 ^ 19) && decide (f.dst.toNat < 2 ^ 19) && decide (f.asid.toNat < 2 ^ 14) && f.ra.toNat % 128 == 0
    && (if kind = 4 then f.lines == 0 else decide (1 ≤ f.lines.toNat) && decide (f.lines.toNat ≤ 8))
    && (if kind = 1 ∨ kind = 4 then f.payload == [] else f.payload.length == 128 * f.lines.toNat) && f.crc == frameSum f

/-- The frame is sound and meant for this device (R437). -/
def State.frameOk (s : State) (fr : Frame) (kind : Nat) : Bool :=
  s.up && frameSound fr kind && fr.dst.toNat == s.mgmt.dev

/-! ## Routes (R435) -/

/-- Entry of the route table. -/
def Remote.route (n : Remote) (dev : Nat) : QWord := ((n.routes.find? (fun r => r.1 == dev)).map (·.2)).getD 0

/-- The ports in the mask of a route entry. -/
def routePorts (e : QWord) : List Nat := (List.range 8).filter (fun i => e.getLsbD (8 + i))

/-- The entry is valid: V is set and the port mask is not zero (R435). -/
def routeValid (e : QWord) : Bool := e.getLsbD 0 && !(routePorts e).isEmpty

/-- Port and MAC address for the next frame to a device: the ports of the mask in turn (R435, R438; DESIGN CHOICE, log entry 53). -/
def Remote.portTo (n : Remote) (dst : Nat) : Option (Nat × BitVec 48) :=
  let e := n.route dst
  if routeValid e then some ((routePorts e).getD (n.turn % (routePorts e).length) 0, e.extractLsb' 16 48) else none

/-! ## Numbers and acknowledgements (R438) -/

/-- A sequence number lies before another: numbers run modulo 2^32. -/
def seqBefore (a b : Word) : Bool := decide (2 ^ 31 ≤ (a - b).toNat)

/-- What has been received from a device. -/
def Remote.rxOf (n : Remote) (src : Nat) : RxWindow := (n.rx.find? (fun r => r.src == src)).getD { src := src, base := 0, got := [] }

/-- Moves the base of a window over the numbers received. -/
def RxWindow.slide (r : RxWindow) : Nat → RxWindow
  | 0 => r
  | n + 1 => if r.got.contains r.base then
      RxWindow.slide { r with base := r.base + 1, got := r.got.filter (· != r.base) } n else r

/-- Notes the receipt of a number. -/
def Remote.receive (n : Remote) (src : Nat) (seq : Word) : Remote :=
  let r := n.rxOf src
  let r1 := RxWindow.slide { r with got := r.got.insert seq } 4096
  { n with rx := if n.rx.any (fun x => x.src == src) then n.rx.map (fun x => if x.src = src then r1 else x) else n.rx ++ [r1] }

/-- SACK of a window. -/
def RxWindow.sack (r : RxWindow) : Word :=
  BitVec.ofNat 32 ((List.range 32).foldl (fun a i => if r.got.contains (r.base + 1 + BitVec.ofNat 32 i) then a + 2 ^ i else a) 0)

/-- Next sequence number for a destination, and the transport after it is taken. DESIGN CHOICE, log entry 53. -/
def Remote.takeSeq (n : Remote) (dst : Nat) : Word × Remote :=
  let q := ((n.tx.find? (fun x => x.1 == dst)).map (·.2)).getD 0
  (q, { n with tx := if n.tx.any (fun x => x.1 == dst) then n.tx.map (fun x => if x.1 = dst then (dst, q + 1) else x)
                     else n.tx ++ [(dst, 1)] })

/-- The frame of given fields, with its CRC-32C. -/
def mkFrame (kind lines src dst : Nat) (seq cack sack : Word) (ra xfer asid : Nat) (payload : List Byte) : Frame :=
  let f : Frame :=
    { etherType := 0x8A7E, vk := BitVec.ofNat 8 (16 + kind), lines := BitVec.ofNat 8 lines, rsv2 := 0, src := BitVec.ofNat 32 src
      dst := BitVec.ofNat 32 dst, seq := seq, cack := cack, sack := sack, ra := BitVec.ofNat 64 ra, xfer := BitVec.ofNat 32 xfer
      asid := BitVec.ofNat 16 asid, rsv26 := 0, payload := payload, crc := 0 }
  { f with crc := frameSum f }

/-- Sends a frame to a device, where its route entry is valid; it is out until it is acknowledged. An acknowledgement takes no number of its own
and awaits no other (R437, R438). -/
def State.sendFrame (s : State) (kind lines dst ra xfer asid : Nat) (payload : List Byte) (owner : Option Nat) : State :=
  match s.net.portTo dst with
  | none => s
  | some (port, mac) =>
    let r := s.net.rxOf dst
    let q := if kind = 4 then (0, s.net) else s.net.takeSeq dst
    let f := mkFrame kind lines s.mgmt.dev dst q.1 r.base r.sack ra xfer asid payload
    let n1 : Remote := { q.2 with sent := q.2.sent ++ [{ port := port, mac := mac, frame := f }], turn := q.2.turn + 1 }
    if kind = 4 then { s with net := n1 }
    else
      let (u, s1) := s.fresh
      { s1 with net := { n1 with out := n1.out ++ [{ id := u, frame := f, owner := owner, tries := 1, born := s.ticks, last := s.ticks }] } }

/-- A number is acknowledged by a CACK and SACK. -/
def ackedBy (cack : Word) (sack : Word) (seq : Word) : Bool :=
  seqBefore seq cack || (seq != cack && sack.getLsbD ((seq - cack).toNat - 1))

/-- A frame acknowledges one that is out. -/
def OutFrame.acked (o : OutFrame) (fr : Frame) : Bool := o.frame.dst == fr.src && ackedBy fr.cack fr.sack o.frame.seq

/-- Takes the acknowledgements that a frame carries: lines of a PUT or ADD are confirmed (R438, R440). -/
def State.takeAcks (s : State) (fr : Frame) : State :=
  let hit := s.net.out.filter (fun o => o.acked fr)
  { s with net := { s.net with
      out := s.net.out.filter (fun o => !o.acked fr)
      xfers := s.net.xfers.map (fun x =>
        if x.op = 1 then x
        else { x with confirmed := (hit.filter (fun o => o.owner == some x.id)).foldl (fun n o => n + o.frame.lines.toNat) x.confirmed }) } }

/-- Acknowledges what has come from a device. -/
def State.acknowledge (s : State) (dst : Nat) : State := s.sendFrame 4 0 dst 0 0 0 [] none

/-- A received frame: discarded where it is malformed; acknowledged and discarded where it is a duplicate; else what `f` makes
of it, where `f` does not apply it unacknowledged, for the sender to send again (R438, R439). DEDUCED, log entry 29. -/
def State.onFrame (s : State) (fr : Frame) (kind : Nat) (f : State → State × Bool) : State :=
  if !s.frameOk fr kind then s
  else
    let src := fr.src.toNat
    let s1 := s.takeAcks fr
    let r := s1.net.rxOf src
    if seqBefore fr.seq r.base ∨ r.got.contains fr.seq then s1.acknowledge src
    else if 4096 ≤ (fr.seq - r.base).toNat then s1
    else
      match f s1 with
      | (s2, false) => s2
      | (s2, true) => State.acknowledge { s2 with net := s2.net.receive src fr.seq } src

/-- The local address space that the export table gives a frame's (R436). -/
def State.exportOf (s : State) (src asid : Nat) : Option Nat :=
  (s.net.exports.find? (fun x => x.1 == src && x.2.1 == asid)).map (fun x => x.2.2)

/-- Reaches the lines of a request: their addresses, or nothing where one fails or has to wait; a fault is noted (R439). A request refused for a page
does not walk again (R395). -/
def State.reachLines (s : State) (fr : Frame) (op : Nat) : State × Option (List Nat) :=
  match s.exportOf fr.src.toNat fr.asid.toNat with
  | none => (s, none)
  | some asid =>
    if s.net.refused.contains (fr.src.toNat, fr.seq) then (s, none)
    else
      (List.range fr.lines.toNat).foldl (fun x i =>
        match x.2 with
        | none => x
        | some l =>
          let va := fr.ra.toNat + 128 * i
          match x.1.remoteLine asid va op with
          | (.ok pa, s1) => (s1, some (l ++ [pa]))
          | (.wait m g, s1) => (s1.noteFault (mkFault asid va (opAccess op) 1 0 0 m g) (.remote fr.src.toNat fr.seq), none)
          | (_, s1) => (s1, none))
        (s, some [])

/-- A frame of PUT or ADD data is applied once, as a whole (R437 to R439). -/
def State.applyData (s : State) (fr : Frame) (op : Nat) : State :=
  s.onFrame fr (if op = 2 then 3 else 0) (fun a =>
    match a.reachLines fr op with
    | (a1, none) => (a1, false)
    | (a1, some pas) =>
      (pas.zipIdx.foldl (fun b x => b.remoteWrite (op == 2) x.1 ((fr.payload.drop (128 * x.2)).take 128)) a1, true))

/-- PUT_DATA. -/
def execPutData (fr : Frame) (s : State) : Out := .next (s.applyData fr 0)
/-- ADD_DATA. -/
def execAddData (fr : Frame) (s : State) : Out := .next (s.applyData fr 2)

/-- GET_REQUEST: the lines are read and sent back (R437, R439). -/
def execGetRequest (fr : Frame) (s : State) : Out :=
  .next (s.onFrame fr 1 (fun a =>
    match a.reachLines fr 1 with
    | (a1, none) => (a1, false)
    | (a1, some pas) =>
      let r := pas.foldl (fun (x : State × List Byte) pa =>
        let y := x.1.remoteRead pa
        (y.2, x.2 ++ y.1)) (a1, [])
      (r.1.sendFrame 2 fr.lines.toNat fr.src.toNat fr.ra.toNat fr.xfer.toNat fr.asid.toNat r.2 none, true)))

/-- Why the lines of a GET are not all written: a local stop or fault, or a line that cannot be written yet. -/
inductive GetStop where
  | halt (h : Halt)
  | dest (line : Nat)
deriving DecidableEq, Repr

/-- Writes one line that a GET has brought, at its local address. -/
def State.getLine (s : State) (c : Copy) (va : Nat) (bs : List Byte) : GetStop ⊕ State :=
  let r : Run := Run.put { s := s } c va bs
  match r.halt with
  | some h => .inl (.halt h)
  | none =>
    match r.cells.find? (fun y => !r.s.lineFor c.uid (y.1 / 128)) with
    | some y => .inl (.dest (y.1 / 128))
    | none => .inr (r.s.engWrite (.engine c.die c.core) c.die true r.cells)

/-- Writes the lines of a GET data frame that are still to come, in row order, each counted as it is written (R439, R440). -/
def State.getLines (s : State) (c : Copy) (x : Xfer) (fr : Frame) : State × Nat × Option GetStop :=
  let first := (fr.ra.toNat - x.ra) / 128
  ((List.range fr.lines.toNat).drop (x.confirmed - first)).foldl (fun (y : State × Nat × Option GetStop) i =>
    if y.2.2.isSome then y
    else
      match y.1.getLine c (x.la + 128 * (first + i)) ((fr.payload.drop (128 * i)).take 128) with
      | .inl h => (y.1, y.2.1, some h)
      | .inr a => (a, y.2.1 + 1, none)) (s, x.confirmed, none)

/-- Changes a transfer. -/
def State.modXfer (s : State) (id : Nat) (f : Xfer → Xfer) : State :=
  { s with net := { s.net with xfers := s.net.xfers.map (fun y => if y.id = id then f y else y) } }

/-- GET_DATA: the lines of a transfer are written locally, in row order, so that those confirmed are the first; a frame that comes before its
turn stays unacknowledged and is sent again (R255, R437, R440; DEDUCED, log entry 29). A local fault or poison ends the transfer after the lines
before it. Lines of a transfer that has ended are dropped. -/
def execGetData (fr : Frame) (s : State) : Out :=
  .next (s.onFrame fr 2 (fun a =>
    match a.net.xfers.find? (fun x => x.id % 2 ^ 32 == fr.xfer.toNat && x.dst == fr.src.toNat && x.op == 1) with
    | none => (a, true)
    | some x =>
      match a.copy? x.copy with
      | none => (a, true)
      | some c =>
        if x.ra + 128 * x.confirmed < fr.ra.toNat then (a, false)
        else
          let r := a.getLines c x fr
          let b := r.1.modXfer x.id (fun y => { y with confirmed := r.2.1 })
          match r.2.2 with
          | none => (b, true)
          | some (.halt (.stop st)) => (b.modXfer x.id (fun y => { y with stop := st, total := r.2.1 }), true)
          | some (.halt h) => (b.copyHalts c h, false)
          | some (.dest n) => (b.urgeLines c.uid [n], false)))

/-- REM_ACKNOWLEDGEMENT. -/
def execRemAcknowledgement (fr : Frame) (s : State) : Out := .next (if s.frameOk fr 4 then s.takeAcks fr else s)

/-! ## Failure (R438, R440) -/

/-- A REM tag completes REMOTE, with one record naming DEV (R440). `confirmed` lines have been confirmed. -/
def State.endRemote (s : State) (c : Copy) (confirmed : Nat) : State :=
  if !s.errRoom 7 then s
  else
    let s1 := s.report (s.mkErr 0x0A 7 7 0 (s.gridId c.gk) (BitVec.ofNat 32 c.team) (BitVec.ofNat 32 (remDev c.cb))
      (BitVec.ofNat 64 (remRA c.cb + 128 * confirmed)))
    (s1.dropXfers c.uid).endCopy c stREMOTE (128 * confirmed)

/-- REM_TRANSFER_FAIL: a transfer ends REMOTE. -/
def State.failXfer (s : State) (id : Nat) (cause : RemCause) : State :=
  match s.net.xfers.find? (fun x => x.id == id) with
  | none => s
  | some x =>
    match s.copy? x.copy with
    | none => s.dropXfers x.copy
    | some c => (s.modCopy c.uid (fun y => { y with remote := some cause, confirmed := x.confirmed })).endRemote c x.confirmed

/-- REM_TRANSFER_FAIL. -/
def execRemTransferFail (id : Nat) (cause : RemCause) (s : State) : Out := .next (s.failXfer id cause)

/-- Ticks of a microsecond. -/
def usTicks : Nat := 18000

/-- The time at which a frame that is out goes again or is given up: its timeout starts at 20 µs and doubles up to 1 ms, and ends 10 ms after its
first transmission (R438). -/
def OutFrame.due (o : OutFrame) : Nat :=
  min (o.last + min (20 * 2 ^ (o.tries - 1)) 1000 * usTicks) (o.born + 10000 * usTicks)

/-- REM_RETRANSMIT: after its timeout a frame that is not acknowledged is sent again; one sent 16 times, or out for 10 ms, fails its transfer (R438).
An answer that is given up is dropped. -/
def execRemRetransmit (id : Nat) (s : State) : Out :=
  match s.net.out.find? (fun o => o.id == id) with
  | none => .next s
  | some o =>
    let s1 := s.passTicks (o.due - s.ticks)
    if 16 ≤ o.tries ∨ o.born + 10000 * usTicks ≤ s1.ticks then
      let s2 := o.owner.elim s1 (fun x => s1.failXfer x .retransmission)
      if o.owner.any (fun x => s2.net.xfers.any (fun y => y.id == x)) then .next s2
      else .next { s2 with net := { s2.net with out := s2.net.out.filter (fun y => y.id != id) } }
    else
      let again : List SentFrame := ((s1.net.portTo o.frame.dst.toNat).map (fun p => { port := p.1, mac := p.2, frame := o.frame })).toList
      .next { s1 with net := { s1.net with
        sent := s1.net.sent ++ again
        turn := s1.net.turn + again.length
        out := s1.net.out.map (fun y => if y.id = id then { y with tries := y.tries + 1, last := s1.ticks } else y) } }

/-! ## Carrying out a REM -/

/-- What a REM reads locally of its lines: those before the first that cannot be read, and why it stops or waits. -/
def Copy.remSource (c : Copy) (s : State) (n : Nat) : Run × List Byte :=
  (List.range n).foldl (fun x i =>
    if x.1.halt.isSome then x
    else
      let y := x.1.read c (remLA c.cb + 128 * i) 128
      if y.1.halt.isSome then (y.1, x.2) else (y.1, x.2 ++ y.2)) ({ s := s }, [])

/-- Why a looped-back REM does not go on: on its local side, or for a line that it writes there; on its remote side, for a page there, or for
the line there. -/
inductive LoopStop where
  | here (g : GetStop)
  | there (cause : RemCause)
  | page (va : Nat) (malformed mig : Bool)
  | line
deriving DecidableEq, Repr

/-- One line of a looped-back REM: read on one side, applied on the other (R436, R439). -/
def Copy.loopLine (c : Copy) (asid : Nat) (s : State) (i : Nat) : LoopStop ⊕ State :=
  let la := remLA c.cb + 128 * i
  let ra := remRA c.cb + 128 * i
  match s.remoteLine asid ra (remOp c.cb) with
  | (.fail e, _) => .inl (.there e)
  | (.wait m g, _) => .inl (.page ra m g)
  | (.held, _) => .inl .line
  | (.ok pa, s1) =>
    if remOp c.cb = 1 then
      let y := s1.remoteRead pa
      match y.2.getLine c la y.1 with
      | .inl h => .inl (.here h)
      | .inr a => .inr a
    else
      let x := Run.read { s := s1 } c la 128
      match x.1.halt with
      | some h => .inl (.here (.halt h))
      | none => .inr (x.1.s.remoteWrite (remOp c.cb == 2) pa x.2)

/-- How far a looped-back REM gets from the lines that it has done. -/
def Copy.loopBack (c : Copy) (asid : Nat) (s : State) : State × Nat × Option LoopStop :=
  ((List.range (remLines c.cb)).drop c.confirmed).foldl (fun x i =>
    if x.2.2.isSome then x
    else
      match c.loopLine asid x.1 i with
      | .inl h => (x.1, x.2.1, some h)
      | .inr s1 => (s1, x.2.1 + 1, none)) (s, c.confirmed, none)

/-- Starts a transfer: frames of at most 8 consecutive lines (R437). -/
def State.startXfer (s : State) (c : Copy) (n stop : Nat) (data : List Byte) : State :=
  let (id, s0) := s.fresh
  let op := remOp c.cb
  let kind := if op = 0 then 0 else if op = 1 then 1 else 3
  let x := (List.range ((n + 7) / 8)).foldl (fun (x : State) i =>
    let k := min 8 (n - 8 * i)
    x.sendFrame kind k (remDev c.cb) (remRA c.cb + 1024 * i) (id % 2 ^ 32) (x.asidOf c.gk)
      (if op = 1 then [] else (data.drop (1024 * i)).take (128 * k)) (some id)) s0
  { x with net := { x.net with xfers := x.net.xfers ++ [{
      id := id, copy := c.uid, dst := remDev c.cb, op := op, total := n, la := remLA c.cb, ra := remRA c.cb, stop := stop,
      confirmed := 0 }] } }

/-- Advances a looped-back REM under the address space that the export table gives (R436, R439, R440). Where the page that it waits for on its remote side
does not resolve it ends, and does not walk again (R395). -/
def State.loopAdvance (s : State) (c : Copy) (asid : Nat) : State :=
  if c.failed && c.remote.isSome then s.endRemote c c.confirmed
  else
    let r := c.loopBack asid s
    let kept : State := r.1.modCopy c.uid (fun x => { x with confirmed := r.2.1, remote := none })
    match r.2.2 with
    | none => r.1.endCopy c 0 (128 * r.2.1)
    | some (.there _) => if s.errRoom 7 then r.1.endRemote c r.2.1 else kept
    | some (.here (.halt (.stop st))) => r.1.endCopy c st (128 * r.2.1)
    | some (.here (.halt h)) => kept.copyHalts c h
    | some (.here (.dest n)) => kept.urgeLines c.uid [n]
    | some .line => (kept.remoteLine asid (remRA c.cb + 128 * r.2.1) (remOp c.cb)).2
    | some (.page va m g) =>
      (kept.noteFault (mkFault asid va (opAccess (remOp c.cb)) 1 c.die c.core m g) (.copy c.uid)).modCopy c.uid (fun x =>
        { x with waits := some (bits va 54 16), failed := false, remote := some .remoteFault })

/-- Advances a REM: one to this device is looped back; one to another sends its lines, and ends when they are confirmed (R436,
R439, R440). -/
def State.remAdvance (s : State) (c : Copy) : State :=
  if c.pending ∨ s.mmu.faults.any (fun f => f.waiters.contains (.copy c.uid)) then s
  else if remDev c.cb = s.mgmt.dev then
    match s.exportOf s.mgmt.dev (s.asidOf c.gk) with
    | none => s.endRemote c 0
    | some asid => s.loopAdvance c asid
  else
    match s.net.xfers.find? (fun x => x.copy == c.uid) with
    | some x => if x.total ≤ x.confirmed then (s.dropXfers c.uid).endCopy c x.stop (128 * x.total) else s
    | none =>
      if !routeValid (s.net.route (remDev c.cb)) then s.endRemote c 0
      else
        let n := remLines c.cb
        if remOp c.cb = 1 then s.startXfer c n 0 []
        else
          let r := c.remSource s n
          match r.1.halt with
          | some (.stop st) =>
            if r.2 = [] then s.endCopy c st 0 else r.1.s.startXfer c (r.2.length / 128) st r.2
          | some h => s.copyHalts c h
          | none => r.1.s.startXfer c n 0 r.2

/-- COPY_COMPLETE: a copy or drain finishes or stops (R255); a REM takes its next step. -/
def execCopyComplete (u : Nat) (s : State) : Out :=
  match s.copy? u with
  | none => .next s
  | some c => .next (if c.fn = .rem then s.remAdvance c else s.finishCopy c)

end Sys2Proof.Machine
end

