-- ==== Sys2Proof/Machine/Launch.lean ====
section
/-! DEFINITION. The launch unit and the die dispatchers: pushes, admission, wait words, selection, placement, retirement, done
words, drain and kill (R275, R293, R298, R304 to R309, R312, R349 to R365, R459). -/
namespace Sys2Proof.Machine

open Sys2Proof

/-! ## Resources of a core (R298, R304, R307, R309) -/

/-- Register units of a warp (R304). -/
def LaunchRec.regUnits (r : LaunchRec) : Nat := r.width * r.regs / 64

/-- Bytes of a warp's bank range: Q (R307). -/
def LaunchRec.bankBytes (r : LaunchRec) : Nat := r.priv + 8 * r.stk + 512 / r.width

/-- What a warp holds; a yielded warp holds nothing (R374). -/
def Warp.seat (w : Warp) (r : LaunchRec) : Seat :=
  { ctx := w.ctx, units := r.regUnits, base := w.bankBase, width := w.width, start := w.bankWord, words := r.bankBytes / 8 }

/-- What the warps of a core hold, and a twin team's reservation on a leader core (R361). -/
def State.seats (s : State) (d k : Nat) : List Seat :=
  (s.allWarps.filter (fun w => w.die == d && w.core == k && !w.yielded)).map (fun w => w.seat (s.recOf w.gk))
    ++ (match (s.die d).resv with | some r => if 2 * r.pair = k then r.seats else [] | none => [])

/-- The context a new warp takes: the lowest free one of the slot with the fewest occupied, the lowest slot on a tie (R298). -/
def freeCtx (used : List Nat) : Option Nat :=
  let n (j : Nat) : Nat := (used.filter (fun c => c % 4 == j)).length
  let best := [1, 2, 3].foldl (fun b j => if n j < n b then j else b) 0
  (List.range 16).map (fun i => 4 * i + best) |>.find? (fun c => !used.contains c)

/-- A range of words is free in `width` banks from a base. -/
def bankFree (ss : List Seat) (base width start words : Nat) : Bool :=
  decide (start + words ≤ 512) && ss.all (fun x =>
    !(decide (x.base < base + width) && decide (base < x.base + x.width) && decide (x.start < start + words)
      && decide (start < x.start + x.words)))

/-- A bank base and first word: the lowest base that has room, and the lowest word there (R307). DEDUCED, log entry 32. -/
def freeBank (ss : List Seat) (width words : Nat) : Option (Nat × Nat) :=
  ((List.range (64 / width)).flatMap (fun i => (dedup (0 :: ss.map (fun x => x.start + x.words))).map (fun st => (i * width, st)))).find?
    (fun bs => bankFree ss bs.1 width bs.2 words)

/-- The place of one more warp on a core (R309). -/
def seatOne (ss : List Seat) (r : LaunchRec) : Option Seat :=
  if 1024 < ss.foldl (fun n x => n + x.units) r.regUnits then none
  else
    match freeCtx (ss.map (fun x => x.ctx)), freeBank ss r.width (r.bankBytes / 8) with
    | some c, some (b, st) =>
      some { ctx := c, units := r.regUnits, base := b, width := r.width, start := st, words := r.bankBytes / 8 }
    | _, _ => none

/-- Places of `n` more warps, together or not at all (R309). -/
def seatMany (r : LaunchRec) : Nat → List Seat → Option (List Seat)
  | 0, _ => some []
  | n + 1, ss =>
    match seatOne ss r with
    | none => none
    | some x => (seatMany r n (ss ++ [x])).map (fun l => x :: l)

/-- First of the macros a team takes on a core: 0 for a matrix or twin team, else the highest run of free ones (R312). -/
def firstMacro (r : LaunchRec) (us : List CimUnit) : Option Nat :=
  let free (p : Nat) : Bool := (List.range r.units).all (fun i => decide (p + i < 40) && (us.getD (p + i) CimUnit.init).owner.isNone)
  if r.mat ∨ r.twin then (if free 0 then some 0 else none)
  else ((List.range 41).reverse.find? (fun p => decide (p + r.units ≤ 40) && free p))

/-- Warps of a team on its leader core, or on its only one (R32). -/
def LaunchRec.leaders (r : LaunchRec) : Nat := if r.twin then (r.warps + 1) / 2 else r.warps

/-- A core, given what its warps hold, can take a team's warps and macros. -/
def coreFits (r : LaunchRec) (ss : List Seat) (us : List CimUnit) (mat : Option (Nat × Nat)) (n : Nat) : Bool :=
  (seatMany r n ss).isSome && (firstMacro r us).isSome && !(r.mat && mat.isSome)

/-- A yielded warp of a core waits to return (R376). -/
def State.restoring (s : State) (d k : Nat) : Bool :=
  s.warps.any (fun w => w.die == d && w.core == k && w.yielded && w.wait.isNone)

/-- A core can take `n` warps of a team, with its macros. -/
def State.coreTakes (s : State) (d k : Nat) (r : LaunchRec) (n : Nat) : Bool :=
  !s.restoring d k && coreFits r (s.seats d k) (s.core d k).units (s.core d k).mat n

/-- Core k, or the pair whose leader is k, can hold a team at once (R360). A core onto which a yielded warp waits to return
takes nothing (R376). -/
def State.fitsAt (s : State) (d k : Nat) (r : LaunchRec) : Bool :=
  s.coreTakes d k r r.leaders && (!r.twin || s.coreTakes d (k + 1) r (r.warps - r.leaders))

/-- The lowest core, or leader of the lowest pair, that can hold a team (R360). -/
def State.chooseCore (s : State) (d : Nat) (r : LaunchRec) : Option Nat :=
  ((List.range 96).filter (fun k => !r.twin || k % 2 == 0)).find? (fun k => s.fitsAt d k r)

/-- A team fits an empty core or pair (R309, R354). -/
def LaunchRec.fitsEmpty (r : LaunchRec) : Bool :=
  let us := List.replicate 40 CimUnit.init
  coreFits r [] us none r.leaders && (!r.twin || coreFits r [] us none (r.warps - r.leaders))

/-! ## Pushes and registers (R352, R353) -/

/-- Sets a queue's OVF. -/
def State.setOvf (s : State) (q : Nat) (v : Bool) : State :=
  { s with lu := { s.lu with queues := s.lu.queues.modify q (fun x => { x with ovf := v }) } }

/-- Reads the 256 bytes of a runtime push at once and queues the record, or drops it where the read meets poison; none while they cannot be read,
with the way made for them (R352, R422). -/
def State.readPush (s : State) (q : Nat) (pa : DWord) : Option State × State :=
  let a := pa.toNat
  if s.agentShut .hdie a 128 ∨ s.agentShut .hdie (a + 128) 128 then
    (none, (s.urgeRead .hdie a 128).urgeRead .hdie (a + 128) 128)
  else if s.poisoned a 256 then (some (s.setOvf q true), s)
  else
    let s1 := (s.forced (a / 128) .hdie).forced (a / 128 + 1) .hdie
    let r := LaunchRec.ofBytes (fun o => s1.byteFor .hdie (a + o))
    (some (s1.pushGrid { r with sched := (r.sched &&& ~~~(0x3F : Word)) ||| BitVec.ofNat 32 q } pa true q none), s)

/-- QPUSH: the record is read at once; where it cannot be read yet, or an earlier push of the queue waits, it waits in order. A push that is
dropped sets OVF (R352). DEDUCED, log entry 54. -/
def execQpush (q : Nat) (pa : DWord) (s : State) : Out :=
  let wait (a : State) : State := { a with lu := { a.lu with pushes := a.lu.pushes ++ [(q, pa)] } }
  if 64 ≤ q ∨ !s.up then .next s
  else if s.queueFull q ∨ pa.toNat % 256 ≠ 0 ∨ !s.populated pa.toNat then .next (s.setOvf q true)
  else if s.lu.pushes.any (fun x => x.1 == q) then .next (wait s)
  else
    match s.readPush q pa with
    | (some t, _) => .next t
    | (none, t) => .next (wait t)

/-- The oldest push of a queue that waits is read, once it can be (R352). -/
def State.takePush (s : State) (q : Nat) : State :=
  match s.lu.pushes.find? (fun x => x.1 == q) with
  | none => s
  | some x =>
    match s.readPush q x.2 with
    | (some t, _) => { t with lu := { t.lu with pushes := t.lu.pushes.erase x } }
    | (none, t) => t

/-- QUANTUM_WRITE (R353). -/
def execQuantumWrite (q : Nat) (v : DWord) (s : State) : Out :=
  s.whenUp (.next { s with lu := { s.lu with queues := s.lu.queues.modify q (fun x =>
    { x with quantum := min (max v.toNat 1) (2 ^ 40) }) } })

/-- QSTAT_CLEAR_OVF (R353). -/
def execQstatClearOvf (q : Nat) (v : DWord) (s : State) : Out := .next (if s.up && v.getLsbD 16 then s.setOvf q false else s)

/-! ## Eligibility (R356, R358) -/

/-- The grid at the head of a queue. -/
def State.headOf (s : State) (q : Nat) : Option Grid := ((s.lu.queues.getD q Queue.init).fifo.head?).bind s.grid?

/-- The queue is eligible (R356). -/
def State.eligible (s : State) (q : Nat) : Bool :=
  (s.lu.queues.getD q Queue.init).en &&
    (match s.headOf q with
     | some g => g.st == .ready && !g.drained && !g.killed && decide (g.nextTeam < g.rcd.teams.toNat)
     | none => false)

/-- After a change: a queue that became ineligible loses a positive deficit and its C (R358). -/
def State.settle (s0 s : State) : State :=
  { s with lu := { s.lu with queues := s.lu.queues.mapIdx (fun q x =>
    if s0.eligible q && !s.eligible q then { x with deficit := min x.deficit 0, credited := false } else x) } }

/-- Takes a grid out of the queues. -/
def State.dequeue (s : State) (gk : Nat) : State :=
  { s with lu := { s.lu with queues := s.lu.queues.map (fun x => { x with fifo := x.fifo.filter (· != gk) }) } }

/-! ## Admission (R354) -/

/-- Bytes of a save slot: Z (R375). -/
def LaunchRec.saveSlot (r : LaunchRec) : Nat := 4096 * ((2048 + r.width * (4 * r.regs + r.bankBytes) + 4095) / 4096)

/-- An address is odd or not canonical. -/
def badEntry (a : DWord) : Bool := a.getLsbD 0 || bits a.toNat 63 55 != 0

/-- RINGSZ is a power of two of at least 65,536. -/
def ringOk (n : Nat) : Bool := (List.range 16).any (fun i => n == 65536 * 2 ^ i)

/-- The row of R354's table, from 1, of the first check that a record fails, the last row apart. -/
def LaunchRec.rejected (r : LaunchRec) (byRuntime : Bool) : Option Nat :=
  let sh := r.shape.toNat
  let sc := r.sched.toNat
  if bits sh 31 26 ≠ 0 ∨ bits sh 7 7 ≠ 0 ∨ bits r.array.toNat 31 6 ≠ 0 ∨ bits sc 31 24 ≠ 0 ∨ bits sc 19 18 ≠ 0
      ∨ bits sc 15 6 ≠ 0 ∨ bits r.asid.toNat 31 14 ≠ 0 ∨ bits sh 6 5 = 3 ∨ bits sh 12 8 = 0 ∨ 8 < bits sh 23 20
      ∨ 64 < bits sh 19 13 ∨ 40 < r.units then some 1
  else if r.teams = 0 ∨ 2048 < r.threads then some 2
  else if 4096 < r.priv + 8 * r.stk then some 3
  else if r.spawns ∧ r.regs < 12 then some 4
  else if r.spawns ∧ (ringOk r.ringsz.toNat = false ∨ r.save.toNat % 4096 ≠ 0) then some 5
  else if r.spawns ∧ r.savesz.toNat * 4096 < 24576 * r.saveSlot then some 6
  else if badEntry r.entry ∨ r.spawn.any (fun e => e != 0 && badEntry e) ∨ badEntry r.traph then some 7
  else if r.const.toNat % 4 ≠ 0 ∨ r.trapa.toNat % 64 ≠ 0 ∨ r.done.toNat % 8 ≠ 0 ∨ r.wait.any (fun x => x.1.toNat % 8 != 0)
      ∨ (r.constsz ≠ 0 ∧ (65536 < r.constsz.toNat ∨ r.constsz.toNat % 4 ≠ 0)) then some 8
  else if byRuntime ∧ (r.depth ≠ 1 ∨ r.parent ≠ 0) then some 9
  else if !r.fitsEmpty then some 10
  else none

/-- What the launch unit makes of a word of a grid's address space. -/
inductive WordRes where
  | ok (pa : Nat)
  | bad
  | wait
deriving DecidableEq, Repr

/-- Reaches a word for the launch unit, through the L2 TLB of die 0 (R391; DEDUCED, log entry 60): a resolvable fault is noted and waited for;
one answered unresolvable, a missing permission or an IO page is unusable (R354, R355, R459), and so is an address with bits 63:55 not
zero, which no row of R354 names (DESIGN CHOICE, log entry 66). -/
def State.luWord (s : State) (asid : Nat) (va : DWord) (write : Bool) : WordRes × State :=
  let a := va.toNat
  if bits a 63 55 ≠ 0 then (.bad, s)
  else if s.lu.answers.contains (asid, bits a 54 16) then
    (.bad, { s with lu := { s.lu with answers := s.lu.answers.filter (· != (asid, bits a 54 16)) } })
  else
    match s.translateL2 0 asid a with
    | (.fault m g, s1) => (.wait, s1.noteFault (mkFault asid a (if write then .atomic else .read) 3 0 0 m g) .launch)
    | (.held, s1) => (.wait, s1)
    | (.backing, s1) => (.bad, s1)
    | (.ok pa e, s1) => if e.io || !e.r || (write && !e.w) then (.bad, s1) else (.ok pa, s1)

/-- The last row of R354's table: some word is unusable (some true), or waits (none). -/
def State.luWords (s : State) (asid : Nat) (ws : List (DWord × Bool)) : Option Bool × State :=
  ws.foldl (fun x w =>
    match x.1 with
    | some false =>
      match x.2.luWord asid w.1 w.2 with
      | (.ok _, s1) => (some false, s1)
      | (.bad, s1) => (some true, s1)
      | (.wait, s1) => (none, s1)
    | _ => x) (some false, s)

/-- Used wait words. -/
def LaunchRec.waits (r : LaunchRec) : List (DWord × DWord) := r.wait.filter (fun x => x.1 != 0)

/-- Ends a record at the head of its queue with no team placed. -/
def State.dropGrid (s : State) (gk : Nat) : State := (s.dequeue gk).modGrid gk (fun g => { g with st := .ended })

/-- ADMISSION: a push that waits is read; the record at the head of a queue is checked, then admitted or rejected and reported (R352, R354). -/
def execAdmission (q : Nat) (s0 : State) : Out :=
  let s := s0.takePush q
  match s.headOf q with
  | none => .next s
  | some g =>
    if g.st ≠ .queued ∨ g.killed then .next s
    else
      let reject (a : State) (row : Nat) : State :=
        if a.errRoom 7 then
          (a.report (a.mkErr 0x04 row 7 0 g.rcd.grid noTeam 0 g.addr)).dropGrid g.key
        else a
      match g.rcd.rejected g.byRuntime with
      | some row => .next (reject s row)
      | none =>
        match s.luWords g.rcd.asidN ((g.rcd.done, true) :: g.rcd.waits.map (fun x => (x.1, false))) with
        | (none, s1) => .next s1
        | (some true, s1) => .next (reject s1 11)
        | (some false, s1) => .next (s1.modGrid g.key (fun x => { x with st := .admitted }))

/-- One round of reads of a grid's wait words: the first unusable one, or whether all are satisfied (R355). -/
def State.waitRound (s : State) (g : Grid) : (Option DWord × Bool) × State :=
  g.rcd.waits.foldl (fun x w =>
    if x.1.1.isSome then x
    else
      match x.2.luWord g.rcd.asidN w.1 false with
      | (.bad, s1) => ((some w.1, false), s1)
      | (.wait, s1) => ((none, false), s1)
      | (.ok pa, s1) =>
        if s1.agentShut .hdie pa 8 then ((none, false), s1.urgeRead .hdie pa 8)
        else if s1.poisoned pa 8 then ((some w.1, false), s1)
        else
          let s2 := s1.forced (pa / 128) .hdie
          ((none, x.1.2 && decide (w.2.toNat ≤ valAt (s2.byteFor .hdie) pa 8)), s2)) ((none, true), s)

/-- WAIT_WORD_NOTIFY: the wait words of an admitted grid are read again; the grid is ready when one round finds every word
satisfied, and ends where a word is unusable (R355, R459). -/
def execWaitWordNotify (gk : Nat) (s : State) : Out :=
  match s.grid? gk with
  | none => .next s
  | some g =>
    if g.st ≠ .admitted then .next s
    else
      match s.waitRound g with
      | ((some a, _), s1) =>
        if s1.errRoom 7 then .next ((s1.report (s1.mkErr 0x0E 1 7 0 g.rcd.grid noTeam 0 a)).dropGrid gk) else .next s1
      | ((none, true), s1) => .next (s1.modGrid gk (fun x => { x with st := .ready }))
      | ((none, false), s1) => .next s1

/-! ## Selection (R356 to R358) -/

/-- Class of a queue: that of its head grid. -/
def State.queueClass (s : State) (q : Nat) : Option Nat := (s.headOf q).map (fun g => g.rcd.cls)

/-- The highest class that has an eligible queue (R357). -/
def State.topClass (s : State) : Option Nat :=
  [3, 2, 1, 0].find? (fun c => (List.range 64).any (fun q => s.eligible q && s.queueClass q == some c))

/-- The selection of R358 in a class, from queue q on. -/
def State.selectLoop (s : State) (cls : Nat) : Nat → Nat → State × Option Nat
  | 0, _ => (s, none)
  | n + 1, q =>
    let x := s.lu.queues.getD q Queue.init
    let upd (f : Queue → Queue) : State := { s with lu := { s.lu with queues := s.lu.queues.modify q f } }
    let next := (q + 1) % 64
    if s.eligible q && s.queueClass q == some cls then
      let d : Int := if x.credited then x.deficit else x.deficit + x.quantum
      if 0 < d then
        let s1 := upd (fun y => { y with deficit := d, credited := true })
        ({ s1 with lu := { s1.lu with pointers := s1.lu.pointers.set cls q } }, some q)
      else (upd (fun y => { y with deficit := d, credited := false })).selectLoop cls n next
    else if s.queueClass q = some cls then (upd (fun y => { y with credited := false })).selectLoop cls n next
    else s.selectLoop cls n next

/-- TEAM_SELECT: with no team selected, the launch unit selects a queue and hands out its next team (R358, R359). -/
def execTeamSelect (s : State) : Out :=
  if s.lu.selected.isSome then .next s
  else
    match s.topClass with
    | none => .next s
    | some c =>
      let worst := s.lu.queues.foldl (fun m x => max m x.deficit.natAbs) 0
      match s.selectLoop c (64 * (worst + 2)) (s.lu.pointers.getD c 0) with
      | (s1, none) => .next s1
      | (s1, some q) =>
        match s1.headOf q with
        | none => .next s1
        | some g => .next { s1 with lu := { s1.lu with selected := some (g.key, g.nextTeam) } }

/-! ## Placement (R31, R298, R305, R312, R359 to R361) -/

/-- A warp as it starts: registers zero, one entry with priority 4 (R13, R31, R36, R305). -/
def Warp.start (u d k gk : Nat) (x : Seat) (r : LaunchRec) (index : Word) (gathered : Bool) (pc : DWord) (mask : Mask)
    (lanes : List Lane) : Warp :=
  { uid := u, die := d, core := k, ctx := x.ctx, gk := gk, gathered := gathered, index := index, width := r.width,
    alloc := r.regs, lanes := lanes, sregs := List.replicate 64 0, wmode := 0, tcause := 0, tepc := 0, tmask := 0, trec := 0,
    tscratch := 0, tags := List.replicate 64 .free, front := [.at pc 4 mask], handler := false, held := [], heldTraps := [],
    inRun := false, count := 0, pend := [], wait := none, barm := none, window := none, sent := [], cmpWait := false,
    loads := [], lateFlags := [], waitsOn := none, atTxe := 0, slotSeed := 0, rbAddr := 0, rbCount := 0, cautious := 0, txLog := 0, txBuf := 0, lastIssue := none, bankBase := x.base,
    bankWord := x.start, yielded := false, noYield := false, kill := false, failing := false, stopped := false, yielding := false }

/-- Adds warp `i` of a team to the state. -/
def State.startWarp (s : State) (gk idx d k i : Nat) (x : Seat) (r : LaunchRec) : State :=
  let (u, s1) := s.fresh
  let lanes := (List.range r.width).map (fun L =>
    { Lane.init r.regs with
      gtid := BitVec.ofNat 64 (idx * r.threads + i * r.width + L), team := BitVec.ofNat 32 idx, winSeed := s1.free + L })
  { s1 with free := s1.free + r.width
            warps := s1.warps ++ [Warp.start u d k gk x r (BitVec.ofNat 32 i) false r.entry (fullMask r.width) lanes] }

/-- Gives a team its macros on a core: storage mode, data undefined (R312, R313, R325). -/
def State.giveMacros (s : State) (d k gk idx p0 n : Nat) (mat : Bool) : State :=
  let s1 := s.modCore d k (fun c => { c with
    units := c.units.mapIdx (fun p u => if p0 ≤ p ∧ p < p0 + n then
      { CimUnit.init with mode := .storage, owner := some (gk, idx), seed := s.free + p } else u)
    array := c.array.filter (fun x => !(decide (12288 * p0 ≤ x.1) && decide (x.1 < 12288 * (p0 + n))))
    mat := if mat then some (gk, idx) else c.mat })
  { s1 with free := s1.free + 40 }

/-- Row buffer, accumulator and scale memory of a new matrix team are undefined (R13); what is poisoned stays so (R442). -/
def State.freshMatrix (s : State) (d k : Nat) : State :=
  let s1 := s.modCore d k (fun c =>
    { c with rowBuf := (Ram.init s.free).poisonAt c.rowBuf.poison, acc := (Ram.init (s.free + 1)).poisonAt c.acc.poison
             scale := (Ram.init (s.free + 2)).poisonAt c.scale.poison })
  { s1 with free := s1.free + 3 }

/-- The placement point of a team on core k of die d: resources are committed and its warps start (R360). With a grid's first team the
runtime has invalidated the instruction caches (R54, R386). -/
def State.placeTeam (s : State) (gk idx d k : Nat) (r : LaunchRec) : Option State :=
  match seatMany r r.leaders (s.seats d k), firstMacro r (s.core d k).units,
      (if r.twin then seatMany r (r.warps - r.leaders) (s.seats d (k + 1)) else some []) with
  | some a, some p0, some b =>
    let t : Team := { gk := gk, idx := idx, die := d, core := k, twin := r.twin, mat := r.mat, units := r.units, p0 := p0,
                      tflags := 0, st := .running, placedAt := (s.die d).cycles, arrivals := [], mode := .idle, due := none }
    let cores := t.cores
    let s0 : State := { s with
      teams := s.teams ++ [t]
      cores := if idx = 0 then s.cores.map (fun c => { c with icache := [] }) else s.cores }
    let s1 := cores.foldl (fun x c => x.giveMacros d c gk idx p0 r.units r.mat) s0
    let s2 := if r.mat then cores.foldl (fun x c => x.freshMatrix d c) s1 else s1
    let s3 := a.zipIdx.foldl (fun x y => x.startWarp gk idx d k y.2 y.1 r) s2
    let s4 := b.zipIdx.foldl (fun x y => x.startWarp gk idx d (k + 1) (r.leaders + y.2) y.1 r) s3
    some s4
  | _, _, _ => none

/-- No twin team is under way on any die: reservations, stops and back-offs end (R361; DESIGN CHOICE, log entry 79). -/
def State.twinOver (s : State) : State :=
  { s with dies := s.dies.map (fun x => { x with resv := none, backoff := 16, conflicts := 0, waitBack := false, stopPair := none }) }

/-- After a placement: the team is handed out, the die was served, and a grid with no team left leaves the head (R356). -/
def State.handedOut (s : State) (gk d : Nat) : State :=
  let s1 := (s.modGrid gk (fun g => { g with nextTeam := g.nextTeam + 1 })).twinOver
  let s2 := { s1 with lu := { s1.lu with selected := none, lastDie := d } }
  match s2.grid? gk with
  | some g => if g.rcd.teams.toNat ≤ g.nextTeam then s2.dequeue gk else s2
  | none => s2

/-- A die takes the offered team if it has reserved a pair for it, or if no die has and none before it in the rotation can hold it (R359,
R361). While a die backs off, another may take the team (DESIGN CHOICE, log entry 79). -/
def State.offeredTo (s : State) (d : Nat) (r : LaunchRec) : Bool :=
  let order := (List.range s.sku.dies).map (fun i => (s.lu.lastDie + 1 + i) % s.sku.dies)
  match order.find? (fun x => (s.die x).resv.isSome) with
  | some x => x == d
  | none => order.find? (fun x => !(s.die x).waitBack && (s.chooseCore x r).isSome) == some d

/-- The reservation of a twin team on a leader core (R361 step 1). -/
def State.reserve (s : State) (d k : Nat) (r : LaunchRec) : Option Resv :=
  (seatMany r r.leaders (s.seats d k)).map (fun x => { pair := k / 2, seats := x })

/-- The reservation of a die ends in a conflict: the dispatcher backs off, and after 8 in a row stops Cooper releases onto the pair (R361
step 4). -/
def State.twinConflict (s : State) (d p : Nat) : State :=
  s.modDie d (fun x => { x with
    resv := none, waitBack := true, conflicts := x.conflicts + 1
    stopPair := if 8 ≤ x.conflicts + 1 then some p else x.stopPair })

/-- TEAM_PLACEMENT: an ordinary team is placed on the lowest core that fits. A twin team is reserved on the leader of the lowest pair
that fits, and placed at the next placement step if the follower still has the resources; else the reservation ends in a conflict
(R360, R361). -/
def execTeamPlacement (d : Nat) (s : State) : Out :=
  match s.lu.selected with
  | none => .next s
  | some (gk, idx) =>
    let r := s.recOf gk
    if s.sku.dies ≤ d ∨ !s.offeredTo d r then .next s
    else if !r.twin then
      match (s.chooseCore d r).bind (fun k => s.placeTeam gk idx d k r) with
      | none => .next s
      | some s1 => .next (s.settle (s1.handedOut gk d))
    else
      match (s.die d).resv with
      | none =>
        match (s.chooseCore d r).bind (fun k => s.reserve d k r) with
        | none => .next s
        | some x => .next (s.modDie d (fun y => { y with resv := some x }))
      | some x =>
        let s0 := s.modDie d (fun y => { y with resv := none })
        match (if s.coreTakes d (2 * x.pair + 1) r (r.warps - r.leaders) then s0.placeTeam gk idx d (2 * x.pair) r else none) with
        | some s1 => .next (s.settle (s1.handedOut gk d))
        | none => .next (s.twinConflict d x.pair)

/-- TWIN_BACKOFF_EXPIRY: the dispatcher retries after its back-off, which doubles up to 1,024 cycles (R361). -/
def execTwinBackoffExpiry (d : Nat) (s : State) : Out :=
  if (s.die d).waitBack then
    .next ((s.passCycles d (s.die d).backoff).modDie d (fun x =>
      { x with waitBack := false, backoff := min (2 * x.backoff) 1024 }))
  else .next s

/-! ## Retirement and done words (R35, R293, R459) -/

/-- Records of a team that have not started. -/
def State.teamSpawns (s : State) (gk idx : Nat) : Bool :=
  let mine (r : SpawnRec) : Bool := r.gk == gk && r.team == idx
  s.cores.any (fun c => c.cooper.store.any mine || c.cooper.parts.any (fun p => p.held.any mine))
    || s.dies.any (fun d => d.rings.any (fun x => x.slots.any (fun y => mine y.rcd)))

/-- Copies or MMULs of a team that have not ended. -/
def State.teamWork (s : State) (gk idx : Nat) : Bool :=
  s.cores.any (fun c => c.copies.any (fun x => x.gk == gk && x.team == idx)
    || (c.mq ++ c.run.toList).any (fun x => x.gk == gk && x.team == idx))

/-- All threads of a team, launched and spawned, have exited, and its copies and matrix operations have ended.
DEDUCED, log entry 31. -/
def State.teamOver (s : State) (t : Team) : Bool :=
  t.st == .running && (s.teamWarps t.gk t.idx).isEmpty && (s.guestWarps t.gk t.idx).isEmpty && !s.teamSpawns t.gk t.idx
    && !s.teamWork t.gk t.idx

/-- A running team of a killed grid of which no warp is in a run is closed, with one record; where it cannot be yet, that waits (R275). One
that has failed ends so (R271). -/
def State.killTeam (s : State) (t : Team) : State :=
  match t.due with
  | some x => s.failTeam t.gk t.idx x.code x.die x.core x.addr x.data
  | none =>
  let dying : Bool := (s.grid? t.gk).any (·.killed)
  let busy := (s.teamWarps t.gk t.idx ++ s.guestWarps t.gk t.idx).any (fun w => w.inRun)
  if t.st != .running || !dying || busy then s
  else if !(s.verifyTeam t).canClose t then (s.verifyTeam t).urgeClose t
  else
    let s1 := (s.verifyTeam t).closeTeam t .killed
    s1.report (s1.mkErr 0x02 0 t.die t.core (s1.gridId t.gk) (BitVec.ofNat 32 t.idx) 0 0)

/-- TEAM_RETIRE: a team that is over retires (R35); one of a killed grid ends killed however its last warp ended (R275), and one that has failed
and could not end then ends failed (R271, R444). -/
def execTeamRetire (gk idx : Nat) (s : State) : Out :=
  match s.team? gk idx with
  | none => .next s
  | some t =>
    if (s.grid? gk).any (·.killed) || t.due.isSome then .next (s.killTeam t)
    else if !s.teamOver t then .next s
    else
      let s0 := s.verifyTeam t
      .next (if s0.canClose t then s0.closeTeam t .retired else s0.urgeClose t)

/-- Every team of a grid has ended, or no further team will be placed and every placed one has (R293). -/
def Grid.teamsOver (g : Grid) : Bool :=
  g.ended == g.nextTeam && (g.killed || g.st == .ended || decide (g.rcd.teams.toNat ≤ g.nextTeam))

/-- A grid whose done word is due: its teams and children have finished, and every record about a team of it is in the ring (R293, R33,
R449). -/
def State.gridDue (s : State) (g : Grid) : Bool :=
  !g.finished && g.teamsOver && !(s.lu.queues.any (fun q => q.fifo.contains g.key))
    && !s.errLate.any (fun r => r.grid == g.rcd.grid && r.team != noTeam)
    && s.grids.all (fun x => x.parentKey != some g.key || x.finished)

/-- A grid counts as finished; its rings hold nothing (R363, R459). -/
def State.gridFinished (s : State) (gk : Nat) : State :=
  let s1 := s.modGrid gk (fun g => { g with finished := true, st := .ended })
  { s1 with dies := s1.dies.map (fun d => { d with
      rings := d.rings.filter (fun x => x.gk != gk), deadRings := d.deadRings.filter (· != gk)
      blindRings := d.blindRings.filter (· != gk) }) }

/-- Removes the killed grids of which no team has been placed, with one record each (R364). -/
def State.killQueued (s : State) : State :=
  s.grids.foldl (fun a g =>
    if g.killed && a.lu.queues.any (fun q => q.fifo.contains g.key) then
      if g.nextTeam = 0 then
        if a.errRoom 7 then (a.report (a.mkErr 0x03 0 7 0 g.rcd.grid noTeam 0 0)).dropGrid g.key else a
      else a.dequeue g.key
    else a) s

/-- DONE_WORD_ADD: the dispatcher adds 1 to the done word, or reports one that cannot be written (R293, R459): a host's bytes are merged before
its poison is judged (R422). A killed grid that is still queued leaves its queue first (R275, R364). -/
def execDoneWordAdd (gk : Nat) (s : State) : Out :=
  match s.grid? gk with
  | none => .next s
  | some g =>
    if g.killed ∧ s.lu.queues.any (fun q => q.fifo.contains gk) then .next (s.settle s.killQueued)
    else if !s.gridDue g then .next s
    else if g.rcd.done.toNat % 8 ≠ 0 ∨ bits g.rcd.done.toNat 63 55 ≠ 0 then .next (s.gridFinished gk)
    else
      let fail (a : State) : State :=
        if a.errRoom 7 then (a.report (a.mkErr 0x0E 0 7 0 g.rcd.grid noTeam 0 g.rcd.done)).gridFinished gk else a
      match s.luWord g.rcd.asidN g.rcd.done true with
      | (.wait, s1) => .next s1
      | (.bad, s1) => .next (fail s1)
      | (.ok pa, s1) =>
        if s1.writerShut (pa / 128) ∨ s1.forcedShut (pa / 128) (.dispatcher s1.lu.lastDie) ∨ !s1.canPublish (fun p => p.gk == gk) then
          .next (((s1.urgePosted (fun p => p.gk == gk)).urgeRead (.dispatcher s1.lu.lastDie) pa 8).urge pa 8 true)
        else if s1.poisoned pa 8 then .next (fail s1)
        else
          let a : Agent := .dispatcher (s1.lu.lastDie)
          let s2 := s1.publish (fun p => p.gk == gk)
          let s3 := s2.forced (pa / 128) a
          .next ((s3.homeWrite a 0 none false pa (toBytes 8 (valAt (s3.byteFor a) pa 8 + 1))).gridFinished gk)

/-! ## Query, drain, resume, kill (R275, R363 to R365) -/

/-- A GCMD write names the grids that bear the identifier and have not finished (R363). -/
def State.nameGrids (s : State) (id : Word) : State :=
  { s with lu := { s.lu with named := (s.grids.filter (fun g => g.rcd.grid == id && !g.finished)).map (fun g => g.key) } }

/-- GRID_QUERY. -/
def execGridQuery (id : Word) (s : State) : Out := .next (s.nameGrids id)

/-- A selected team of one of the grids goes back, and a reservation for it ends (R364, R365). -/
def State.unselect (s : State) (ks : List Nat) : State :=
  match s.lu.selected with
  | none => s
  | some (gk, _) => if ks.contains gk then { s.twinOver with lu := { s.lu with selected := none } } else s

/-- GRID_DRAIN: a selected team that no die has accepted goes back to its grid (R364, R365). -/
def execGridDrain (id : Word) (s : State) : Out :=
  let s1 := s.nameGrids id
  let ks := s1.family s1.lu.named
  let s2 := ks.foldl (fun a k => a.modGrid k (fun g => { g with drained := true })) s1
  .next (s.settle ((if s2.accepted then s2 else s2.unselect ks).drainCheck))

/-- GRID_RESUME. -/
def execGridResume (id : Word) (s : State) : Out :=
  let s1 := s.nameGrids id
  .next ((s1.family s1.lu.named).foldl (fun a k => a.modGrid k (fun g => { g with drained := false, drainTold := false })) s1)

/-- Closes the running teams of killed grids of which no warp is in a run, with one record each (R275). -/
def State.killTeams (s : State) : State := s.teams.foldl State.killTeam s

/-- A warp that is killed stops: what it speculated is discarded (R275). -/
def State.stopWarp (s : State) (u : Nat) : State :=
  match s.warp? u with
  | none => s
  | some w => (match w.window with | some v => s.dropPending w v | none => s).endWarp u

/-- Stops the warps of killed grids that are in no run and whose stores have performed; the others stop at the end of their runs, once they
have. -/
def State.killWarps (s : State) (ks : List Nat) : State :=
  (s.allWarps.filter (fun w => ks.contains w.gk)).foldl (fun a w =>
    if w.inRun ∨ w.sent ≠ [] then a.modWarp w.uid (fun x => { x with kill := true }) else a.stopWarp w.uid) s

/-- GRID_KILL: the named grids and their descendants are killed (R275). -/
def execGridKill (id : Word) (s : State) : Out :=
  let s1 := s.nameGrids id
  let ks := s1.family s1.lu.named
  let s2 := ks.foldl (fun a k => a.modGrid k (fun g => { g with killed := true })) s1
  let s3 := (s2.unselect ks).dropSpawns (fun g _ => ks.contains g)
  .next (s.settle ((s3.killWarps ks).killQueued.killTeams))

/-- WARP_KILL_STOP: a warp of a killed grid stops at the end of its run; with the last one of its team the team is closed
(R275). A grid that was launched by a killed one meets the same fate (R365). -/
def execWarpKillStop (u : Nat) (s : State) : Out :=
  match s.warp? u with
  | none => .next (s.killQueued.killTeams)
  | some w => .next (if w.kill && !w.inRun && w.sent.isEmpty then ((s.stopWarp u).killQueued).killTeams else s)

/-- GSTAT bits 2:0 (R363). -/
def State.gstat (s : State) : Nat :=
  match s.lu.named with
  | [] => 0
  | l =>
    match (s.grids.filter (fun g => l.contains g.key && !g.finished)) with
    | [] => 7
    | g :: _ =>
      if g.killed then 6
      else if g.drained then (if s.holdsNoCore g.key then 5 else 4)
      else if s.teams.any (fun t => t.gk == g.key && t.st == .running) ∨ 0 < g.nextTeam then 3
      else if g.st = .ready then 2 else 1

end Sys2Proof.Machine
end

