-- ==== Sys2Proof/Machine/Schedule.lean ====
section
/-! DEFINITION. What moves warps on between instructions: slots, results and traps (R45, R46, R268, R300), waits for words (R185,
R187), commit and rollback (R333, R340, R344), posted stores (R283, R287), the serial permit (R227), and the Cooper's releases,
rings and yields (R369 to R376). -/
namespace Sys2Proof.Machine

open Sys2Proof

/-! ## Slots and results (R45, R46, R300) -/

/-- The first warp issued longer ago than the second; a tie goes to the lower context (R300). -/
def Warp.older (a b : Warp) : Bool :=
  match a.lastIssue, b.lastIssue with
  | none, none => decide (a.ctx < b.ctx)
  | none, some _ => true
  | some _, none => false
  | some x, some y => decide (x < y) || (x == y && decide (a.ctx < b.ctx))

/-- The ready warp that slot `j` of a core picks (R298, R300). -/
def State.pickFor (s : State) (d k j : Nat) : Option Warp :=
  (s.warps.filter (fun w => w.die == d && w.core == k && w.ctx % 4 == j && w.ready)).foldl (fun b w =>
    match b with
    | none => some w
    | some x => if w.older x then some w else some x) none

/-- The slot has no run in progress. -/
def State.slotIdle (s : State) (d k j : Nat) : Bool := decide (j < 4) && ((s.core d k).slots.getD j none).isNone

/-- A warp takes the issue (DESIGN CHOICE, log entry 1): the one that had it stays in its run. -/
def State.resume (s : State) (u : Nat) : State :=
  match s.warps.find? (fun w => w.uid == u) with
  | none => s
  | some w => { s with cur := some w, warps := s.cur.toList ++ s.warps.filter (fun x => x.uid != u), stall := false }

/-- SLOT_PICK: an idle slot picks a warp, whose run starts with the entries unparked since the last one (R55, R300). -/
def execSlotPick (d k j : Nat) (s : State) : Out :=
  match (if s.slotIdle d k j then s.pickFor d k j else none) with
  | none => .next s
  | some w =>
    let s1 := s.modWarp w.uid (fun x => { x with inRun := true, count := 0, front := startFront x.front })
    .next ((s1.modCore d k (fun c => { c with slots := c.slots.set j (some w.uid) })).resume w.uid)

/-- RUN_LIMIT: a run of 24 instructions ends, and a trap raised in it is delivered (R45). -/
def execRunLimit (u : Nat) (s : State) : Out :=
  match s.warp? u with
  | none => .next s
  | some w => .next (if w.inRun && decide (24 ≤ w.count) then (s.unslot u).deliverTrap u else s)

/-- Posted stores of a warp that no earlier access holds any longer enter the posted path (R283). -/
def State.settleWarp (s : State) (u : Nat) : State :=
  match s.warp? u with
  | none => s
  | some w =>
    let x := s.settlePosted w
    x.1.modWarp u (fun _ => x.2)

/-- The flags of the results that have returned for a register are set, for good (R204). -/
def Warp.flagsDue (w : Warp) (r : Nat) : Warp :=
  let w1 := (w.lateFlags.filter (fun x => x.1 == r)).foldl (fun v x =>
    v.lasting id (fun ls => ls.modify x.2.1 (fun l => { l with fflags := l.fflags ||| x.2.2 })) id) w
  { w1 with lateFlags := w1.lateFlags.filter (fun x => x.1 != r) }

/-- A register is pending no longer, and a rollback does not make it so (R46, R340). -/
def Warp.returned (w : Warp) (r : Nat) : Warp :=
  let sv (x : Save) : Save := { x with pend := x.pend.filter (· != r) }
  { w with pend := w.pend.filter (· != r), window := w.window.map (fun v => { v with save := sv v.save, points := v.points.map sv }) }

/-- A spawn that sets this predicate has not been offered yet (R184). -/
def Warp.spawnDue (w : Warp) (r : Nat) : Bool :=
  (w.sent ++ (match w.window with | some v => v.buf | none => [])).any (fun x => x.spawn.any (fun y => y.2.val + 0xC0 == r))

/-- RESULT_RETURN: the data of the loads of a register returns, and they perform (R331); the flags that come with it are set (R204). Within
the run that asked for it the register stays pending, its flags unseen (R46, R48, R204), and so does the predicate of a spawn that is not
offered yet (R184).
DESIGN CHOICE, log entry 40. -/
def execResultReturn (u r : Nat) (s : State) : Out :=
  match s.warp? u with
  | none => .next s
  | some w =>
    let s1 := (w.loads.filter (fun l => l.covers r)).foldl (fun a l => a.performLoad w l) s
    .next ((s1.modWarp u (fun x =>
      if x.loads.any (fun l => l.covers r) then x
      else
        if x.inRun || x.spawnDue r then x else (x.flagsDue r).returned r)).settleWarp u)

/-- TRAP_DELIVERY: the next held trap of a warp between its runs is delivered (R264 to R271). -/
def execTrapDelivery (u : Nat) (s : State) : Out :=
  match s.warp? u with
  | none => .next s
  | some w => .next (if w.inRun then s else s.deliverTrap u)

/-! ## Waits for words (R185, R187) -/

/-- The warp executes JOINW or WAITW again: the lanes that waited go back to it (R272). -/
def Warp.waitAgain (w : Warp) (ls : List Nat) : Warp :=
  let m := maskOf ls
  match w.front.find? (fun e => e.mask &&& m != 0) with
  | none => { w with wait := none }
  | some e => { w with wait := none, front := addLanes (dropLanes w.front m) (e.pc - 4) e.pri m }

/-- One round of reads of the words of a parked warp, each with its test: none where some word cannot be read now, else whether
every test holds (R185, R187). The flag says that the instruction is to execute again, for a word that is no longer readable.
DEDUCED, log entry 39. -/
def State.waitReads (s : State) (w : Warp) (n : Nat) (ws : List (Nat × DWord × (Nat → Bool))) : Option Bool × Bool × State :=
  ws.foldl (fun (x : Option Bool × Bool × State) y =>
    match x with
    | (some ok, false, a) =>
      if (w.lane y.1).life ≠ .live then x
      else
        match a.reach w y.1 (a.asidOf w.gk) y.2.1.toNat n .read with
        | (.ok pa io, a1) =>
          if !io && a1.loadBusy w.uid y.1 w.die pa n then (none, false, a1.urgeAccess w.uid y.1 pa n false)
          else if !io && a1.l1Shut w.die w.core (pa / 128) then (none, false, a1)
          else if a1.loadPoison w y.1 pa n then (none, true, a1)
          else
            let a2 := if io then a1 else (a1.forced (pa / 128) (.thread w.uid y.1)).touchLine w.die w.core (pa / 128)
            (some (ok && y.2.2 (a2.loadVal w y.1 pa n)), false, a2)
        | (.held, a1) => (none, false, a1)
        | (_, a1) => (none, true, a1)
    | _ => x) (some true, false, s)

/-- Reads the words of a parked warp again: it wakes when every test holds in one round. -/
def State.rereads (s : State) (w : Warp) (n : Nat) (ws : List (Nat × DWord × (Nat → Bool))) : State :=
  match s.waitReads w n ws with
  | (some true, _, s1) => s1.modWarp w.uid (fun x => { x with wait := none })
  | (some false, _, s1) => s1
  | (none, false, s1) => s1
  | (none, true, s1) => s1.modWarp w.uid (fun x => x.waitAgain (ws.map (fun y => y.1)))

/-- JOINW_WAKE (R185). -/
def execJoinwWake (u : Nat) (s : State) : Out :=
  match s.warp? u with
  | none => .next s
  | some w =>
    match w.wait with
    | some (.joinw ws _) => .next (s.rereads w 8 (ws.map (fun x => (x.1, x.2, fun v => v == 0))))
    | _ => .next s

/-- WAITW_WAKE (R187). -/
def execWaitwWake (u : Nat) (s : State) : Out :=
  match s.warp? u with
  | none => .next s
  | some w =>
    match w.wait with
    | some (.waitw ws) => .next (s.rereads w 4 (ws.map (fun x => (x.1, x.2.1, fun v => decide (x.2.2.toNat ≤ v)))))
    | _ => .next s

/-! ## Commit and rollback (R333, R340, R344) -/

/-- The shadow point moves to a later load: what the window holds from before it is released (R333 item 1, R343). -/
def Warp.movePoint (w : Warp) (v : Window) (p : Save) (rest : List Save) : Warp :=
  { w with
    rbCount := 0
    sent := w.sent ++ v.buf.filter (fun e => decide (e.seq < p.seq))
    loads := w.loads.map (fun l => if l.seq < p.seq then { l with spec := false } else l)
    window := some { v with
      save := p
      points := rest
      log := v.log.filter (fun e => decide (p.seq ≤ e.seq))
      buf := v.buf.filter (fun e => decide (p.seq ≤ e.seq))
      ents := v.ents.filter (fun e => decide (p.seq ≤ e.1))
      watch := v.watch.filter (fun e => decide (p.seq ≤ e.seq))
      copies := v.copies.filter (fun e => decide (p.seq ≤ e.1)) } }

/-- The warp is no longer speculative: what its window holds is released (R333 item 2, R343). -/
def Warp.committed (w : Warp) (v : Window) : Warp :=
  { w with rbCount := 0, sent := w.sent ++ v.buf, loads := w.loads.map (fun l => { l with spec := false }), window := none }

/-- The shadow points from the first that still has an earlier access of the window unperformed before it (R333 item 1). -/
def Warp.livePoints (w : Warp) (v : Window) : List Save :=
  v.points.dropWhile (fun p => !(v.buf.any (fun b => b.plain && decide (b.seq < p.seq))
    || w.loads.any (fun l => l.spec && decide (l.seq < p.seq))))

/-- Pending copies of a warp that leaves speculation have their issue point: they take their place in order, and a destination in compute
residence refuses them (R244, R246, R256, R288). -/
def State.issueCopies (s : State) (w : Warp) : State :=
  ((s.core w.die w.core).copies.filter (fun c => c.pending && !c.issued && c.w == w.uid)).foldl (fun a c =>
    let (u, a1) := a.fresh
    let no := match a1.team? c.gk c.team with | some t => a1.arrayRefused t c.fn c.cb | none => false
    let c1 := { c with uid := u, issued := true, refused := no }
    a1.modCore w.die w.core (fun k => { k with copies := k.copies.filter (fun x => x.uid != c.uid) ++ [c1] })) s

/-- Copies that have issued start once the warp's earlier accesses have performed, its posted stores visible before them (R288). -/
def State.beginCopies (s : State) (w : Warp) : State :=
  let mine := postedBy w.uid (List.range w.width)
  if !s.copyDue w ∨ !w.settled then s
  else if !s.canPublish mine then s.urgePosted mine
  else (s.publish mine).modCore w.die w.core (fun k => { k with
    copies := k.copies.map (fun c => if c.w = w.uid ∧ c.issued then { c with pending := false, issued := false } else c) })

/-- The join counter of a spawn that the window holds has been poisoned (R208). -/
def State.counterLost (s : State) (v : Window) : Bool :=
  v.buf.any (fun b => b.spawn.any (fun r => r.1.join.isSome) && s.poisoned b.addr 8)

/-- WARP_COMMIT (R333): nothing while an access before the shadow point has not performed, or where a team of the warp has failed (R271). A spawn whose counter has been poisoned
executes again. DEDUCED, log entry 41. -/
def State.commitWarp (s : State) (w : Warp) : State :=
  if w.sent.any StoreRec.plain ∨ w.loadsDue ∨ w.stopped then s
  else
    match w.window with
    | none => s.beginCopies w
    | some v =>
      match w.livePoints v with
      | p :: rest => ((s.modWarp w.uid (fun x => x.movePoint v p rest)).settleWarp w.uid).count w.die w.core 2 1
      | [] =>
        if s.counterLost v then s.rollbackWarp w.uid
        else (((s.issueCopies w).modWarp w.uid (fun x => x.committed v)).settleWarp w.uid).count w.die w.core 1 1

/-- WARP_COMMIT: then a trap that the window held is delivered (R265). -/
def execWarpCommit (u : Nat) (s : State) : Out :=
  match s.warp? u with
  | none => .next s
  | some w =>
    let s1 := s.commitWarp w
    match s1.warp? u with
    | none => .next s1
    | some x => .next (if x.inRun then s1 else s1.deliverTrap u)

/-- ROLLBACK (R340, R341). -/
def execRollback (u : Nat) (s : State) : Out :=
  let s1 := s.rollbackWarp u
  match s1.warp? u with
  | none => .next s1
  | some w => .next (if w.failing then s1.failTeams w w.liveMask cMCHECK 0 [] else s1)

/-- CAUTIOUS_MODE_END: its 64 instructions have issued; the rollback count becomes 0 (R344). -/
def execCautiousModeEnd (u : Nat) (s : State) : Out :=
  .next (s.modWarp u (fun w => if w.cautious = 1 then { w with cautious := 0, rbCount := 0 } else w))

/-! ## Posted stores and the permit (R227, R283, R287) -/

/-- A posted store passes its visibility point for one agent; a warp of it that read before rolls back (R282, R283). -/
def State.seenBy (s : State) (p : Posted) (a : Agent) : State :=
  if s.sees p a then s
  else
    let s1 := { s with posted := s.posted.map (fun (q : Posted) => if q.uid = p.uid then { q with seen := q.seen ++ [a] } else q) }
    s1.unwatch (fun w L => a == Agent.thread w.uid L) (p.pa / 128)

/-- POSTED_STORE_PUBLISH: a visibility point for one agent, or the package point, once the home can take it (R283, R284). -/
def execPostedStorePublish (p : Nat) (sc : PubTarget) (s : State) : Out :=
  let one (q : Posted) : Bool := q.uid == p
  match sc with
  | .package => .next (if s.canPublish one then s.publish one else s.urgePosted one)
  | .agent a => .next ((s.posted.find? one).elim s (fun q => s.seenBy q a))

/-- FORCED_PUBLISH (R287). -/
def execForcedPublish (line : Nat) (a : Agent) (s : State) : Out :=
  .next (if s.forcedShut line a then s.urgePosted (forcedBy (s.outside line a)) else s.forced line a)

/-- The lane's entry parked at its `txb` becomes selectable: an entry of its own (R227). -/
def grantEntry (L : Nat) (front : List FEntry) : List FEntry :=
  match front.find? (fun e => e.park == .serial && e.mask.getLsbD L) with
  | none => front
  | some e => dropLanes front (laneBit L) ++ [{ e with mask := laneBit L, park := .nextRun }]

/-- The lane waits at a `txb`. -/
def Warp.waitsSerial (w : Warp) (L : Nat) : Bool := (w.front ++ w.held).any (fun e => e.park == .serial && e.mask.getLsbD L)

/-- SERIAL_PERMIT_GRANT: the permit goes to the next requesting lane; a request whose lane has ended lapses (R227). -/
def execSerialPermitGrant (s : State) : Out :=
  match s.lu.permit, s.lu.permitQ with
  | none, (u, L) :: rest =>
    let lives := match s.warp? u with | some w => w.waitsSerial L | none => false
    let s1 := { s with lu := { s.lu with permit := if lives then some (u, L) else none, permitQ := rest } }
    .next (s1.modWarp u (fun w => w.lasting (grantEntry L) id id))
  | _, _ => .next s

/-! ## The Cooper (R369 to R376) -/

/-- A partial warp is due at a cycle that its assignments of lane 0 give; the cycles until then pass (R369). -/
def State.dueAfter (s : State) (d k p : Nat) (f : Partial → Option Nat) : State :=
  match (s.core d k).cooper.parts[p]? with
  | none => s
  | some x =>
    match f x with
    | none => s
    | some t =>
      if x.due.any (fun v => decide (v ≤ t)) then s
      else
        (s.passCycles d (t - (s.die d).cycles)).modCore d k (fun c => { c with cooper := { c.cooper with
          parts := c.cooper.parts.modify p (fun y => y.dueBy t) } })

/-- PARTIAL_WARP_TIMEOUT: 512 cycles after the assignment of lane 0. -/
def execPartialWarpTimeout (d k p : Nat) (s : State) : Out := .next (s.dueAfter d k p (fun x => some (x.t0 + 512)))

/-- JOINW_DUE_DELAY: 64 cycles after an assignment of lane 0 while a warp of its team was parked in JOINW. -/
def execJoinwDueDelay (d k p : Nat) (s : State) : Out := .next (s.dueAfter d k p (fun x => x.join0.map (· + 64)))

/-- The cycle at which a partial warp became due, if it has by now (R369). -/
def Partial.dueAt (p : Partial) (now : Nat) : Option Nat :=
  least ((p.due.toList ++ [p.t0 + 512] ++ (p.join0.map (· + 64)).toList).filter (fun t => decide (t ≤ now)))

/-- The partial warp of a core that became due first, and when (R369). -/
def State.firstDue (s : State) (d k : Nat) : Option (Partial × Nat) :=
  (s.core d k).cooper.parts.foldl (fun b p =>
    match p.dueAt (s.die d).cycles, b with
    | none, _ => b
    | some t, none => some (p, t)
    | some t, some q => if t < q.2 then some (p, t) else b) none

/-- Nothing bars a release onto a core: no reservation or stop of its pair (R361, R369), no yielded warp that waits to return
(R376). -/
def State.releaseOpen (s : State) (d k : Nat) : Bool :=
  !(s.die d).resv.any (fun x => x.pair == k / 2) && (s.die d).stopPair != some (k / 2) && !s.restoring d k

/-- The lane that a spawn record starts (R14, R183, R370). -/
def SpawnRec.lane (r : SpawnRec) (alloc seed : Nat) : Lane :=
  let j := r.join.getD 0
  { Lane.init alloc with
    regs := r.payload ++ [j.extractLsb' 0 32, j.extractLsb' 32 32] ++ List.replicate (alloc - 10) 0
    gtid := r.root, sid := r.sid, team := BitVec.ofNat 32 r.team, join := r.join, winSeed := seed }

/-- Lanes of a partial warp that hold a record. -/
def Partial.mask (p : Partial) : Mask := maskOf ((List.range p.recs.length).filter (fun L => (p.recs.getD L none).isSome))

/-- The gathered warp of a partial warp starts (R183, R370). -/
def State.startGathered (s : State) (d k : Nat) (p : Partial) (x : Seat) : State :=
  let r := s.recOf p.gk
  let (u, s1) := s.fresh
  let lanes := (List.range r.width).map (fun L =>
    match p.recs.getD L none with
    | some y => y.lane r.regs (s1.free + L)
    | none => { Lane.init r.regs with life := .never })
  let w := Warp.start u d k p.gk x r 0xFFFFFFFF true (r.spawnEntry p.entry) p.mask lanes
  { s1 with free := s1.free + r.width, warps := s1.warps ++ [w] }

/-- COOPER_RELEASE: the warp that became due first is released once it has its place; the oldest waiting record may then open a
partial warp (R368 to R370). -/
def execCooperRelease (d k : Nat) (s : State) : Out :=
  match s.firstDue d k with
  | none => .next s
  | some (p, _) =>
    match (if s.releaseOpen d k then seatOne (s.seats d k) (s.recOf p.gk) else none) with
    | none => .next s
    | some x =>
      let s1 := s.modCore d k (fun c => { c with cooper := { c.cooper with
        parts := c.cooper.parts.filter (fun q => !(q.gk == p.gk && q.entry == p.entry)) } })
      .next ((s1.startGathered d k p x).gather d k)

/-- RING_SPILL: above 896 records a spill begins, and one under way goes on (R371). -/
def execRingSpill (d k : Nat) (s : State) : Out :=
  let c := (s.core d k).cooper
  .next (if c.spilling || decide (896 < c.occupancy) then (s.spill d k).2 else s)

/-- A grid's ring on a die may be pulled from by a core: it holds records and its head can be read, and a team of the grid is placed there or a
gathered warp of it runs there. One that counts as full after an unresolvable fault is emptied all the same (R371, R373, R377; DESIGN CHOICE,
log entry 15). -/
def State.ringFor (s : State) (d k gk : Nat) : Bool :=
  !((s.die d).ring gk).isEmpty && !(s.die d).blindRings.contains gk &&
    (s.teams.any (fun t => t.gk == gk && t.st == .running && t.die == d && t.cores.contains k)
      || s.allWarps.any (fun w => w.gk == gk && w.gathered && w.die == d && w.core == k))

/-- The grid whose ring a core pulls from next: in turn after the last (R371). -/
def State.nextRing (s : State) (d k : Nat) : Option Nat :=
  let gs := ((s.die d).rings.map (fun x => x.gk)).filter (fun g => s.ringFor d k g)
  (least (gs.filter (fun g => decide ((s.core d k).cooper.lastRing < g)))).or (least gs)

/-- The record at the head of a ring comes to a core's store. -/
def State.pullHead (s : State) (d k : Nat) (ring : Ring) (r : SpawnRec) : State :=
  (s.modDie d (fun y => y.setRing { ring with slots := ring.slots.drop 1 })).modCore d k (fun c => { c with cooper := { c.cooper with
    store := c.cooper.store ++ [r], lastRing := ring.gk } })

/-- Takes up to `n` records from the head of a ring, each read from its slot; a poisoned slot fails the record's team (R371, R373; DESIGN
CHOICE, DESIGN CHOICE, log entry 15). -/
def State.refillLoop (d k gk : Nat) : Nat → State → State
  | 0, s => s
  | n + 1, s =>
    let ring := (s.die d).ringOf gk
    match ring.slots.head? with
    | none => s
    | some x =>
      let va := s.ringAddr d gk x.pos
      match s.coopReach d k gk va 64 .read with
      | (.wait, s1) => s1
      | (.never, s1) => (s1.killRing d k gk va).modDie d (fun y => { y with blindRings := setPut y.blindRings gk })
      | (.ok pas, s1) =>
        if pas.any (fun p => s1.poisoned p.1 p.2) then s1.failTeam gk x.rcd.team cMCHECK d k 0 []
        else
          match s1.slotRead d k x.seed pas with
          | (none, s2) => s2
          | (some bs, s2) => (s2.pullHead d k ring (bs.elim x.rcd x.rcd.altered)).refillLoop d k gk n

/-- RING_REFILL: up to 128 records from the head of the ring that is next (R371). -/
def execRingRefill (d k gk : Nat) (s : State) : Out :=
  if 256 ≤ (s.core d k).cooper.occupancy ∨ s.nextRing d k ≠ some gk then .next s
  else .next ((s.refillLoop d k gk 128).gather d k)

/-- Cycle since which a warp is parked in JOINW. -/
def Warp.joinSince (w : Warp) : Option Nat :=
  match w.wait with
  | some (.joinw _ t) => some t
  | _ => none

/-- Address of a warp's save slot (R375). -/
def State.saveAddr (s : State) (w : Warp) : Nat :=
  let r := s.recOf w.gk
  r.save.toNat + r.saveSlot * (w.die * 6144 + w.core * 64 + w.ctx)

/-- A warp that has yielded stands in the save slot. -/
def State.slotTaken (s : State) (w : Warp) : Bool :=
  s.warps.any (fun x => x.yielded && x.gk == w.gk && s.saveAddr x == s.saveAddr w)

/-- The warp of a core that yields next: longest parked in JOINW, with no BUSY tag and no result outstanding; but for one whose slot holds
another warp, or whose yield was cancelled since it parked (R374, R375; DESIGN CHOICE, log entry 42). -/
def State.yielder (s : State) (d k : Nat) : Option Warp :=
  (s.warps.filter (fun w => w.die == d && w.core == k && w.joinSince.isSome && !w.yielded && !w.noYield && w.pend.isEmpty
    && !w.tags.contains .busy && !w.kill && !w.stopped && (s.recOf w.gk).spawns && !s.slotTaken w)).foldl (fun b w =>
      match b with
      | none => some w
      | some x => if w.joinSince.getD 0 < x.joinSince.getD 0 then some w else some x) none

/-- A warp is written to its save slot and frees its place, once its bytes can be written; an unresolvable fault on the slot cancels the yield
(R374, R375). -/
def State.yieldGo (s : State) (d k : Nat) (w : Warp) : State :=
  let busy (a : State) : State := a.modWarp w.uid (fun x => { x with yielding := true })
  let va := s.saveAddr w
  match s.coopReach d k w.gk va (s.recOf w.gk).saveSlot .write with
  | (.wait, s1) => busy s1
  | (.never, s1) =>
    if s1.errRoom d then
      (s1.report (s1.mkErr 0x09 1 d k (s1.gridId w.gk) noTeam 0 (BitVec.ofNat 64 va))).modWarp w.uid (fun x =>
        { x with noYield := true, yielding := false })
    else busy s1
  | (.ok pas, s1) =>
    match s1.scribble d k pas with
    | (none, s2) => busy s2
    | (some s2, _) => s2.modWarp w.uid (fun x => { x with yielded := true, yielding := false, slotSeed := s1.free })

/-- WARP_YIELD: 256 cycles after a warp became due that cannot be released, a parked warp yields (R374, R375); a yield that has begun is
completed, even where the words that its warp waited for have been read as zero meanwhile (R379). -/
def execWarpYield (d k : Nat) (s : State) : Out :=
  match s.warps.find? (fun w => w.die == d && w.core == k && w.yielding) with
  | some w => .next (s.yieldGo d k w)
  | none =>
    match s.firstDue d k, s.yielder d k with
    | some (p, t), some w =>
      if s.releaseOpen d k && (seatOne (s.seats d k) (s.recOf p.gk)).isSome then .next s
      else .next ((s.passCycles d (t + 256 - (s.die d).cycles)).yieldGo d k w)
    | _, _ => .next s

/-- A warp read from bytes that a program has put in its save slot: its registers, predicates and addresses are what those bytes give
(R373, DESIGN CHOICE, log entry 15). -/
def Warp.altered (w : Warp) (bs : List Byte) : Warp :=
  let x (i : Nat) : Word := Config.slotWord bs i
  { w with
    sregs := (List.range w.sregs.length).map x
    lanes := w.lanes.mapIdx (fun L l =>
      let o := 1024 * (L + 1)
      { l with
        regs := (List.range l.regs.length).map (fun i => x (o + i))
        preds := (x (o + 256)).extractLsb' 0 7
        xr := (List.range l.xr.length).map (fun i => (x (o + 257 + i)).extractLsb' 0 16)
        fflags := (x (o + 260)).extractLsb' 0 5 })
    front := w.front.zipIdx.map (fun e => { e.1 with pc := (x (512 + 2 * e.2 + 1) ++ x (512 + 2 * e.2)) &&& ~~~(1 : DWord) }) }

/-- A yielded warp has its place again (R376). -/
def Warp.restored (w : Warp) (x : Seat) : Warp := { w with yielded := false, ctx := x.ctx, bankBase := x.base, bankWord := x.start }

/-- A yielded warp is lost with its save slot: one record, and its teams fail (DESIGN CHOICE, log entry 42). -/
def State.loseWarp (s : State) (w : Warp) (va : Nat) : State :=
  if s.errRoom w.die then
    (s.report (s.mkErr 0x09 1 w.die w.core (s.gridId w.gk) noTeam 0 (BitVec.ofNat 64 va))).modWarp w.uid (fun x =>
      { x with failing := true })
  else s

/-- WARP_RESTORE: a yielded warp whose words have all been read as zero takes a place on its core again, perhaps another context
(R376). -/
def execWarpRestore (u : Nat) (s : State) : Out :=
  match s.warp? u with
  | none => .next s
  | some w =>
    if !w.yielded ∨ w.wait.isSome ∨ w.failing ∨ w.stopped then .next s
    else
      match seatOne (s.seats w.die w.core) (s.recOf w.gk) with
      | none => .next s
      | some x =>
        let va := s.saveAddr w
        match s.coopReach w.die w.core w.gk va (s.recOf w.gk).saveSlot .read with
        | (.wait, s1) => .next s1
        | (.never, s1) => .next (s1.loseWarp w va)
        | (.ok pas, s1) =>
          if pas.any (fun p => s1.poisoned p.1 p.2) then .next (s1.modWarp u (fun y => { y with failing := true }))
          else
            match s1.slotRead w.die w.core w.slotSeed pas with
            | (none, s2) => .next s2
            | (some bs, s2) => .next (s2.modWarp u (fun y => (bs.elim y y.altered).restored x))

end Sys2Proof.Machine
end

