-- ==== Sys2Proof/Machine/Paging.lean ====
section
/-! DEFINITION. Walks, the fault queue and its answers, shootdowns and migrations (R272, R273, R391 to R401). -/
namespace Sys2Proof.Machine

open Sys2Proof

/-! ## Walks and faults (R391, R392, R395) -/

/-- PAGE_WALK: a TLB miss of a core is walked: a translation is installed or a fault raised (R391, R392, R395). -/
def execPageWalk (d k asid page : Nat) (acc : Access) (s : State) : Out :=
  s.whenUp <| match s.translate d k asid (65536 * page) with
  | (.fault m g, s1) =>
    if s1.mmu.faults.any (fun x => x.asid == asid && x.page == page && x.mig == g) then .next s1
    else .next { s1 with mmu := { s1.mmu with faults := s1.mmu.faults ++ [mkFault asid (65536 * page) acc 0 d k m g] } }
  | (_, s1) => .next s1

/-- Code of an access kind in a fault record (R395). -/
def accessCode : Access → Nat
  | .read => 0 | .write => 1 | .execute => 2 | .atomic => 3

/-- The 16 bytes of a fault record (R395). -/
def PageFault.bytes (f : PageFault) : List Byte :=
  toBytes 8 (65536 * f.page + f.asid)
    ++ toBytes 8 (accessCode f.acc + f.source * 2 ^ 2 + f.malformed.toNat * 2 ^ 5 + f.core * 2 ^ 8 + f.die * 2 ^ 16)

/-- The fault queue has no space: its indices run modulo 4,096 and are equal when it is empty (R395, DEDUCED, log entry 12). -/
def State.faultFull (s : State) : Bool := (s.mmu.fqtail.toNat + 1) % 4096 == s.mmu.fqhead.toNat % 4096

/-- The H-die interrupts the operating system for the fault queue: it is not empty (R395). -/
def State.faultIrq (s : State) : Bool := s.mmu.fqhead.toNat % 4096 != s.mmu.fqtail.toNat % 4096

/-- FAULT_RECORD_ENTER: the oldest fault not yet entered takes its place in the queue; a migration fault makes no record (R395,
R401). -/
def execFaultRecordEnter (s : State) : Out :=
  match s.mmu.faults.find? (fun f => !f.entered && !f.mig) with
  | none => .next s
  | some f =>
    let pa := s.mmu.fqbase.toNat + 16 * (s.mmu.fqtail.toNat % 4096)
    if s.faultFull then .next s
    else if s.writerShut (pa / 128) then .next (s.urge pa 16 true)
    else
      let s1 := s.homeWrite .hdie 4 none false pa f.bytes
      .next { s1 with mmu := { s1.mmu with
        fqtail := BitVec.ofNat 64 ((s1.mmu.fqtail.toNat + 1) % 4096)
        faults := s1.mmu.faults.map (fun x => if x.asid = f.asid ∧ x.page = f.page ∧ x.mig = f.mig then { x with entered := true } else x) } }

/-! ## Answers (R272, R273, R395) -/

/-- An entry that waits for a page is unparked; an answer other than 0 is the PFAIL it meets when it is next selected: DETAIL 2 for
a fetch, 1 where the backing store failed, else 0 (R273). -/
def FEntry.answer (page asid status : Nat) (mig : Bool) (e : FEntry) : FEntry :=
  match e.park with
  | .page p a addr fetch g =>
    if p = page ∧ a = asid ∧ g = mig then
      { e with park := .nextRun
               pfail := if status = 0 then e.pfail else e.pfail ++ [(e.mask, if fetch then 2 else status - 1, addr)] }
    else e
  | _ => e

/-- A trap record that cannot be reached fails the teams of the trap (R268, R271). -/
def State.recordLost (s : State) (w : Warp) (page : Nat) : State :=
  match w.nextTrap with
  | none => s
  | some t =>
    let ra := trapRecAddr (s.recOf w.gk).trapa w
    if w.inRun ∨ w.spec ∨ bits ra.toNat 54 16 ≠ page then s
    else s.failTeams w t.mask cPFAIL ra (s.trapRecord w t)

/-- What an answer does to one that waits (R272, R273, R395). -/
def State.answerOne (s : State) (page asid status : Nat) (mig : Bool) (x : Waiter) : State :=
  match x with
  | .warp u =>
    let s1 := s.modWarp u (fun w => w.lasting (fun f => f.map (FEntry.answer page asid status mig)) id id)
    if status = 0 then s1
    else
      match s1.warp? u with
      | none => s1
      | some w => s1.recordLost w page
  | .copy c => s.modCopy c (fun y => if status = 0 then { y with waits := none } else { y with failed := true })
  | .cooper d k =>
    if status = 0 then s
    else s.modCore d k (fun c => { c with cooper := { c.cooper with answers := c.cooper.answers ++ [(asid, page)] } })
  | .launch => if status = 0 then s else { s with lu := { s.lu with answers := s.lu.answers ++ [(asid, page)] } }
  | .remote src seq => if status = 0 then s else { s with net := { s.net with refused := s.net.refused.insert (src, seq) } }

/-- Answers the outstanding fault on a page: every waiter receives it, and the fault is outstanding no longer (R395). -/
def State.answer (s : State) (page asid status : Nat) (mig : Bool) : State :=
  match s.mmu.faults.find? (fun f => f.page == page && f.asid == asid && f.mig == mig) with
  | none => s
  | some f =>
    let s1 := { s with mmu := { s.mmu with faults := s.mmu.faults.filter (fun x => !(x.page == page && x.asid == asid && x.mig == mig)) } }
    f.waiters.foldl (fun a x => a.answerOne page asid status mig x) s1

/-- FRES_RESOLVED: status 0. -/
def execFresResolved (page asid : Nat) (s : State) : Out := .next (s.answer page asid 0 false)
/-- FRES_UNRESOLVABLE: status 1. -/
def execFresUnresolvable (page asid : Nat) (s : State) : Out := .next (s.answer page asid 1 false)
/-- FRES_BACKING_FAILED: status 2. -/
def execFresBackingFailed (page asid : Nat) (s : State) : Out := .next (s.answer page asid 2 false)

/-! ## Shootdown (R396) -/

/-- An entry goes with a shootdown: operation 0 one page, 1 an address space, 2 all (R396). -/
def TlbEntry.shot (t : TlbEntry) (op page asid : Nat) : Bool :=
  match op with
  | 0 => t.covers asid (65536 * page)
  | 1 => t.asid == asid
  | _ => true

/-- A grid's accesses may have been translated through a removed entry. -/
def State.shotGrid (s : State) (op asid gk : Nat) : Bool := op == 2 || s.asidOf gk == asid

/-- A page that a shootdown names. -/
def shotPage (op page p : Nat) : Bool := op != 0 || p == page

/-- Begins a shootdown: matching translations go; warps that watch a line of a matching page roll back, and transactions that have
reached one abort (R396 steps 1 and 2; DEDUCED, log entry 16). Copies give up the lines for which they have read no bytes yet, to translate
them again (DEDUCED, log entry 76). -/
def State.startShoot (s : State) (op page asid : Nat) : State :=
  let keep (l : List TlbEntry) : List TlbEntry := l.filter (fun t => !t.shot op page asid)
  let s1 : State := { s with
    mmu := { s.mmu with sdNow := some (op, page, asid) },
    cores := s.cores.map (fun c => { c with tlb := keep c.tlb }),
    dies := s.dies.map (fun d => { d with l2tlb := keep d.l2tlb }) }
  let s2 := (s1.copiesOf (fun gk _ => s1.shotGrid op asid gk)).foldl (fun a c =>
    let b := (c.owned.filter (fun n => !c.dueLines.contains n)).foldl (fun x n => x.disown c n) a
    { b with lines := b.lines.map (fun r => { r with queue := r.queue.filter (fun q => q != .own c.uid && q != .addl c.uid) }) }) s1
  (s2.allWarps.filter (fun w => s2.shotGrid op asid w.gk)).foldl (fun a w =>
    let a1 := if w.window.any (fun v => v.watch.any (fun x => x.pages.any (shotPage op page))) then a.rollbackWarp w.uid else a
    ((List.range w.width).filter (fun L => (w.lane L).txActive && (w.lane L).tx.pages.any (shotPage op page))).foldl
      (fun b L => b.abortTx w.uid L cConflict) a1) s2

/-- A write of SDCMD: it waits while a shootdown is in progress (R396). -/
def State.shoot (s : State) (op page asid : Nat) : State :=
  if !s.up then s
  else if s.mmu.sdNow.isSome then { s with mmu := { s.mmu with sdQueue := s.mmu.sdQueue ++ [(op, page, asid)] } }
  else s.startShoot op page asid

/-- SHOOTDOWN_PAGE: operation 0. -/
def execShootdownPage (page asid : Nat) (s : State) : Out := .next (s.shoot 0 page asid)
/-- SHOOTDOWN_ASID: operation 1. -/
def execShootdownAsid (asid : Nat) (s : State) : Out := .next (s.shoot 1 0 asid)
/-- SHOOTDOWN_ALL: operation 2. -/
def execShootdownAll (s : State) : Out := .next (s.shoot 2 0 0)

/-- Accesses that an old translation may have served are still under way: of warps, and of copies whose bytes are on their way (R396
step 3). -/
def State.shotBusy (s : State) (op asid : Nat) : Bool :=
  s.allWarps.any (fun w => s.shotGrid op asid w.gk && (!w.settled || w.window.any (fun v => !v.buf.isEmpty)))
    || !(s.copiesOf (fun gk _ => s.shotGrid op asid gk)).all (fun c => c.out.isEmpty)

/-- SHOOTDOWN_COMPLETE: once every access with the old translation has completed, posted stores included, the shootdown ends, and the
next one begins (R396 steps 3 and 4). -/
def execShootdownComplete (s : State) : Out :=
  match s.mmu.sdNow with
  | none => .next s
  | some (op, _, asid) =>
    let mine (p : Posted) : Bool := s.shotGrid op asid p.gk
    if s.shotBusy op asid then .next s
    else if !s.canPublish mine then .next (s.urgePosted mine)
    else
      let s1 := s.publish mine
      let s2 := { s1 with mmu := { s1.mmu with sdNow := none } }
      match s2.mmu.sdQueue with
      | [] => .next s2
      | (o, p, a) :: rest => .next ({ s2 with mmu := { s2.mmu with sdQueue := rest } }.startShoot o p a)

/-! ## Migration (R399 to R401) -/

/-- Free frames or a watermark of a tier. -/
def tierReg (l : List DWord) (t : Nat) : Nat := (l.getD t 0).toNat

/-- The H-die writes 8 bytes of physical memory. -/
def State.hdieWrite (s : State) (pa v : Nat) : State := s.homeWrite .hdie 4 none false pa (toBytes 8 v)

/-- Words that the H-die reads and writes in one go: where one cannot be reached yet, the way is made for it. -/
def State.hdieWaits (s : State) (rd wr : List Nat) : Option State :=
  match rd.find? (fun a => s.agentShut .hdie a 8), wr.find? (fun a => s.writerShut (a / 128)) with
  | some a, _ => some (s.urgeRead .hdie a 8)
  | none, some a => some (s.urge a 8 true)
  | none, none => none

/-- Posted stores are published where the H-die reads after a narrow fence (R287). -/
def State.hdieReads (s : State) (rd : List Nat) : State := rd.foldl (fun a x => a.forced (x / 128) .hdie) s

/-- Why a command is refused: the tier is above its watermark, a large page, an IO page, or no valid leaf (R399, R400). -/
def State.migRefused (s : State) (asid page dest : Nat) : Bool :=
  let t := tierOf dest
  decide (tierReg s.mmu.tfree t ≤ tierReg s.mmu.thigh t) ||
    (match walk s asid (65536 * page), pteSlot s asid (65536 * page) with
     | .ok e, some _ => e.big || e.io
     | _, _ => true)

/-- MIGRATION_COMMAND_TAKE: with fewer than 8 moves under way an engine takes the next command: the leaf entry becomes V = 0 and
MIG = 1, and the page is shot down (R400 steps 1 and 2). R400 says that bits 15:14 of word 0 are zero and gives a command that has them set no fate:
it is refused (DESIGN CHOICE, log entry 49). -/
def execMigrationCommandTake (s : State) : Out :=
  let h := s.mmu.mqhead.toNat % 1024
  let a := s.mmu.mqbase.toNat + 32 * h
  if s.mmu.mqhead = s.mmu.mqtail ∨ 8 ≤ s.mmu.migs.length then .next s
  else if s.agentShut .hdie a 16 then .next (s.urgeRead .hdie a 16)
  else
    let s0 := s.forced (a / 128) .hdie
    let w0 := s0.memVal a 8
    let dest := s0.memVal (a + 8) 8
    let page := bits w0 54 16
    let asid := bits w0 13 0
    let rd := walkReads s0 asid (65536 * page)
    let pte? := pteSlot s0 asid (65536 * page)
    match s0.hdieWaits rd ((a + 16) :: pte?.toList) with
    | some s1 => .next s1
    | none =>
      let s1 := s0.hdieReads rd
      let s2 := { s1 with mmu := { s1.mmu with mqhead := BitVec.ofNat 64 ((h + 1) % 1024) } }
      match (if bits w0 15 14 ≠ 0 ∨ s1.migRefused asid page dest then none else pteSlot s1 asid (65536 * page)) with
      | none => .next (s2.hdieWrite (a + 16) 2)
      | some pte =>
        let v := s2.memVal pte 8
        let (u, s3) := s2.fresh
        let m : Migration :=
          { uid := u, slot := a, asid := asid, page := page, old := pteAddr v, new := bits dest 51 16 * 65536, pte := pte }
        let s4 := s3.hdieWrite pte (v - 1 + (if v.testBit 6 then 0 else 2 ^ 6))
        let s5 : State := { s4 with mmu := { s4.mmu with migs := s4.mmu.migs ++ [m] } }
        .next (s5.shoot 0 page asid)

/-- The frame's lines leave every cache (R400 step 5). -/
def State.dropFrame (s : State) (frame : Nat) : State :=
  let s0 := { s with cores := s.cores.map (fun c => { c with icache := c.icache.filter (fun x => x.line / 512 != frame / 65536) }) }
  ((s.lines.filter (fun r => r.line / 512 == frame / 65536)).map (fun r => r.line)).foldl (fun a l =>
    (((List.range 5).foldl (fun b h => b.invalidate h l) a).modLine l (fun r => { r with halves := [.hi, .hi] })).snoop l none true) s0

/-- Copies a frame with coherent reads: poisoned granules stay poisoned (R400 step 3). -/
def State.copyFrame (s : State) (old new : Nat) : State :=
  let s0 := s.publish (fun p => overlaps p.pa p.bytes.length old 65536 || overlaps p.pa p.bytes.length new 65536)
  let inside (f a : Nat) : Bool := decide (f ≤ a) && decide (a < f + 65536)
  let src := s0.mem.filter (fun c => inside old c.1)
  let bad := s0.poison.filter (fun g => inside old (8 * g))
  let mem := src.foldl (fun m (c : Host.Cell) => cellPut m (new + (c.1 - old)) c.2) (s0.mem.filter (fun c => !inside new c.1))
  let poison := bad.foldl (fun p g => setPut p (new / 8 + (g - old / 8))) (s0.poison.filter (fun g => !inside new (8 * g)))
  let s1 : State := { s0 with mem := mem, poison := poison }
  (s1.dropFrame new).dropFrame old

/-- The shootdown of a migration's page is over. -/
def State.migShot (s : State) (m : Migration) : Bool :=
  s.mmu.sdNow != some (0, m.page, m.asid) && !s.mmu.sdQueue.contains (0, m.page, m.asid)

/-- A line of a frame that a host, an engine, a lock or an operation holds, or posted stores that cannot reach it. -/
def State.frameLine (s : State) (frame : Nat) : Option Nat :=
  ((s.lines.filter (fun r => r.line / 512 == frame / 65536)).map (·.line)).find? (fun n => s.writerShut n)

/-- Posted stores to the frames of a migration. -/
def Migration.posted (m : Migration) (p : Posted) : Bool :=
  overlaps p.pa p.bytes.length m.old 65536 || overlaps p.pa p.bytes.length m.new 65536

/-- MIGRATION_COMPLETE: the frame is copied and the entry names it, or the move has failed and the entry is as it was: so it is where `ok` says an
error, and where either frame is not populated (R380); those that
met the migration fault walk again, and the status is written (R400 steps 3 to 5). DESIGN CHOICE, log entry 49. -/
def execMigrationComplete (u : Nat) (ok : Bool) (s : State) : Out :=
  match s.mmu.migs.find? (fun m => m.uid == u) with
  | none => .next s
  | some m =>
    if !s.migShot m then .next s
    else
      match (s.frameLine m.old).or (s.frameLine m.new), s.hdieWaits [m.pte] [m.pte, m.slot + 16] with
      | some n, _ => .next (s.urge (128 * n) 128 true)
      | none, some s1 => .next s1
      | none, none =>
        if !s.canPublish m.posted then .next (s.urgePosted m.posted)
        else
          let s0 := s.hdieReads [m.pte]
          let v := s0.memVal m.pte 8
          let base := v % 2 ^ 16 / 2 * 2 + 1 - (if v.testBit 6 then 2 ^ 6 else 0) + v / 2 ^ 52 * 2 ^ 52
          let done := ok && s0.populated m.new && s0.populated m.old
          let s1 := if done then s0.copyFrame m.old m.new else s0
          let s2 := s1.hdieWrite m.pte (base + (if done then m.new else m.old))
          let s3 := { s2 with mmu := { s2.mmu with migs := s2.mmu.migs.filter (fun x => x.uid != u) } }
          .next ((s3.answer m.page m.asid 0 true).hdieWrite (m.slot + 16) (if done then 1 else 3))

end Sys2Proof.Machine
end

