-- ==== Sys2Proof/Machine/Fabric.lean ====
section
/-! DEFINITION. Messages of the fabric and of the CXL bridge as they act at homes and holders (R402 to R423). Data lives in one
memory, so a message moves states, locks and visibility; what it carries is already there, but for what a host may have
changed. -/
namespace Sys2Proof.Machine

open Sys2Proof

/-! ## Holders and requests (R410, R418) -/

/-- A holder number names a holder of this package, which runs. -/
def State.holderOk (s : State) (h : Holder) : Bool := s.up && (h == 4 || decide (h.val < s.sku.dies))

/-- The agent that a holder's own requests are made for. -/
def holderAgent (h : Holder) : Agent := if h = 4 then .hdie else .dispatcher h.val

/-- The snoop's acknowledgement is on its way. -/
def State.awaitAck (s : State) (h : Holder) (line : Nat) : State :=
  s.modLine line (fun r => { r with acks := if r.acks.contains h then r.acks else r.acks ++ [h] })

/-- The acknowledgement of a holder has come. -/
def State.acked (s : State) (h : Holder) (line : Nat) : State := s.modLine line (fun r => { r with acks := r.acks.filter (· != h) })

/-- A request has left the line's queue. -/
def State.leaveQueue (s : State) (line : Nat) (q : HomeReq) : State :=
  s.modLine line (fun r => { r with queue := r.queue.filter (· != q) })

/-- A request can be handled now: nothing keeps the line, it is its turn, and it has a tracker (R410, R418). -/
def State.canServe (s : State) (line : Nat) (q : HomeReq) : Bool :=
  (s.line line).isOpen && s.inTurn line q && !s.refused line q

/-- A request that arrives is handled, or waits in the line's queue or the slice's retry list with what it asks for meanwhile (R410,
R418). -/
def State.handle (s : State) (line : Nat) (q : HomeReq) (ready : Bool) (urge serve : State → State) : State :=
  if s.canServe line q && ready then serve (s.leaveQueue line q) else urge (s.joinQueue line q)

/-- An engine that owns the line is told to write it next (R414). -/
def State.recallLine (s : State) (line : Nat) : State := s.urge (128 * line) 0 false

/-! ## Read copies (R411) -/

/-- The home grants a holder a read copy, or has an owner other than itself forward it; a grant over the fabric ends with its CmpAck (R410,
R411). -/
def State.grantRds (s : State) (h : Holder) (line : Nat) : State :=
  let home := s.homeDie (line * 128)
  let s1 := s.forced line (holderAgent h)
  let busy (a : State) : State := a.modLine line (fun r => { r with busy := some h })
  if h.val = home then s1.fabRead h.val line
  else
    match (s1.line line).owner with
    | some x => busy (if x ≠ home ∧ x ≠ 4 then s1 else s1.fabRead h.val line)
    | none => busy (s1.fabRead h.val line)

/-- Nothing but the line's queue keeps a read copy from a holder: no host has changed a half, there is room, and no posted store must be
published first (R287, R388, R422). -/
def State.rdsReady (s : State) (h : Holder) (line : Nat) : Bool :=
  !(s.line line).hostHas (128 * line) 128 && !s.noRoom h.val line && !s.forcedShut line (holderAgent h)

/-- RDS: a request for a read copy (R411). -/
def execRds (h : Holder) (line : Nat) (s : State) : Out :=
  let r := s.line line
  if !s.holderOk h ∨ !s.populated (128 * line) ∨ r.of h ≠ .i ∨ r.busy = some h then .next (s.leaveQueue line (.rds h))
  else .next (s.handle line (.rds h) (s.rdsReady h line)
    (fun x => (x.urgeRead (holderAgent h) (128 * line) 128).urgeRoom line) (fun x => x.grantRds h line))

/-- CMPACK: the requester has received what it was granted, and the home's operation ends (R410). -/
def execCmpack (h : Holder) (line : Nat) (s : State) : Out :=
  let r := s.line line
  if r.busy = some h ∧ r.of h ≠ .i then .next (s.modLine line (fun r => { r with busy := none })) else .next s

/-- RETRY: a request for a read copy finds every tracker busy and joins the tail of the slice's retry list (R418). -/
def execRetry (h : Holder) (line : Nat) (s : State) : Out :=
  let r := s.line line
  if s.trackerFree line ∨ !s.holderOk h ∨ !s.populated (128 * line) ∨ r.of h ≠ .i ∨ r.busy = some h then .next s
  else .next (s.joinQueue line (.rds h))

/-- RTYGNT: a free tracker goes to the head of the retry list, whose request is resent and accepted (R418). -/
def execRtygnt (d i : Nat) (s : State) : Out :=
  match (s.slice d i).retry with
  | [] => .next s
  | (line, q) :: rest =>
    if 64 ≤ s.trackers d i then .next s
    else .next ((s.modSlice d i (fun x => { x with retry := rest })).modLine line (fun r => { r with queue := r.queue ++ [q] }))

/-! ## Writes at the home (R405, R406, R411) -/

/-- Die of an agent; 4 for one of the H-die. -/
def State.agentDie (s : State) (a : Agent) : Nat := ((s.agentPlace a).map (·.1)).getD 4

/-- Bytes of one line that stand in memory. -/
def State.inLine (s : State) (pa n : Nat) : Bool :=
  s.up && s.populated pa && decide (0 < n) && decide (pa % 128 + n ≤ 128)

/-- The store of an agent that is no thread (R405). -/
def State.agentStore (s : State) (a : Agent) (pa : Nat) (bs : List Byte) : State :=
  s.handle (pa / 128) (.wrp a pa bs) (!s.writeShut (pa / 128)) (fun x => x.urge pa bs.length true)
    (fun x => x.homeWrite a (x.agentDie a) none true pa bs)

/-- The oldest access that a warp has sent, a posted one apart, reaches its home: a store performs, with those of the other lanes of its
instruction in the line, and its completion is awaited; a spawn is offered (R184, R406, R409). Earlier loads perform first (R331). DEDUCED, log entry 69. -/
def State.sendNext (s : State) (u : Nat) : State :=
  let s1 := s.settleWarp u
  match s1.warp? u with
  | none => s1
  | some w =>
    match w.sent with
    | [] => s1
    | st :: _ =>
      let go := w.sent.filter (st.with ·)
      let gone (a : State) (c : Bool) (f : Warp → Warp) : State :=
        a.modWarp u (fun x => f { x with sent := x.sent.filter (fun y => !st.with y), cmpWait := c })
      if w.cmpWait ∨ w.loadsDue then s1
      else
        match st.spawn with
        | some r =>
          (match s1.offerSpawn w st r.1 with
           | (none, s2) => s2
           | (some ok, s2) => (gone s2 false (fun x => x.spawnTold st.lane r.2 ok)).settleWarp u)
        | none =>
          if s1.storeWaits w st then s1.awaitLine u st.lane st.addr st.bytes.length true
          else (go.foldl (fun a x => a.perform { w with sent := [] } x) (gone s1 (st.space == .global) id)).settleWarp u

/-- WRP: the oldest unperformed store of a warp performs, or a store of another agent (R405, R406). -/
def execWrp (src : WrpSrc) (s : State) : Out :=
  match src with
  | .agent (.thread _ _) _ _ => .next s
  | .agent a pa bs => .next (if s.inLine pa bs.length then s.agentStore a pa bs else s)
  | .warp u => .next (s.sendNext u)

/-- CMP: the completion reaches the requester (R406, R409). -/
def execCmp (u : Nat) (s : State) : Out := .next (s.modWarp u (fun w => { w with cmpWait := false }))

/-- An atomic is applied at the home for a holder; one whose word is poisoned has no effect (R203 to R205, R208). -/
def State.agentAtomic (s : State) (h : Holder) (k : AtomKind) (pa : Nat) (x y : QWord) : State :=
  let n := atomBytes k
  let a := holderAgent h
  let s1 := s.forced (pa / 128) a
  match (atomNew k (valAt (s1.byteFor a) pa n) (x.toNat % 2 ^ (8 * n)) (y.toNat % 2 ^ (8 * n))).1 with
  | none => if s1.poisoned pa n then s1 else s1.fabWrite (pa / 128) h.val none false
  | some v => if s1.poisoned pa n then s1 else s1.homeWrite a h.val none false pa (toBytes n v)

/-- ATM: an atomic of an agent that is no thread (R411). -/
def execAtm (h : Holder) (k : AtomKind) (pa : Nat) (x y : QWord) (s : State) : Out :=
  let n := atomBytes k
  let line := pa / 128
  if !s.holderOk h ∨ pa % n ≠ 0 ∨ !s.inLine pa n then .next s
  else .next (s.handle line (.atm h k pa x y) (!s.writeShut line && !s.forcedShut line (holderAgent h))
    (fun a => (a.urgeRead (holderAgent h) pa n).urge pa n true) (fun a => a.agentAtomic h k pa x y))

/-! ## Commits (R225, R415) -/

/-- Lines of the lanes at a `txe`, by rising address (R415). -/
def Warp.txeLines (w : Warp) : List Nat := w.txeLanes.foldl (fun l L => (w.lane L).tx.lines.foldl setPut l) []

/-- TXLK: a committing lane locks its next line, unless another lane of its `txe` has, and validates what it read there; a changed value aborts
it. The lanes of a `txe` take their lines in one rising order (R415). -/
def execTxlk (u L line : Nat) (s : State) : Out :=
  match s.warp? u with
  | none => .next s
  | some w =>
    let t := (w.lane L).tx
    let act := w.txeLanes
    let mine (n : Nat) : Bool := (s.txeLock u act n).isSome
    if !act.contains L ∨ !t.lines.contains line ∨ (w.txeLines.filter (fun n => decide (n < line))).any (fun n => !mine n) then .next s
    else if s.lineWaits u act L t line then
      .next ((s.yieldLocks u act L line).awaitHome u L (128 * line) 128 (t.wlines.contains line))
    else
      let s1 := s.forced line (.thread u L)
      if s1.readsChanged u L (t.rset.filter (fun c => c.1 / 128 == line)) then .next (s1.abortTx u L cConflict)
      else .next (if mine line then s1 else s1.modLine line (fun r => { r with lock := some (u, L) }))

/-- TXWR: with every line of the lanes at the `txe` locked, the lanes commit in ascending order at consecutive points, each with its stores
applied at one point, and their lines are unlocked (R225, R411, R415). The TXWR of the other lines then find nothing to do. DEDUCED, log entry
45. -/
def execTxwr (u L line : Nat) (s : State) : Out :=
  match s.warp? u with
  | none => .next s
  | some w =>
    let act := w.txeLanes
    if !act.contains L ∨ !(w.lane L).tx.lines.contains line
        ∨ act.any (fun M => (w.lane M).tx.lines.any (fun n => (s.txeLock u act n).isNone || s.lineWaits u act M (w.lane M).tx n)) then .next s
    else .next (act.foldl (fun a M => a.commitLane u M) s)

/-! ## Snoops (R411 to R413) -/

/-- The home can snoop a holder for a line: no operation has granted the line and waits for its CmpAck, no lock holds the line, and fewer than
8 snoops of the slice are outstanding there (R410, R415, R417, R419). -/
def State.canSnoop (s : State) (h : Holder) (line : Nat) : Bool :=
  let r := s.line line
  s.holderOk h && r.busy.isNone && r.lock.isNone && (r.snooping h || decide (s.snoopsOut h line < 8))

/-- A snoop takes a line from a holder: a die gives up its copy at once; for H the hosts answer first (R413, R422). -/
def State.snoopTake (s : State) (h : Holder) (line : Nat) : State :=
  if h = 4 ∧ !(s.line line).hostFree then (s.awaitAck h line).urge (128 * line) 128 true
  else ((s.invalidate h line).snoopDie h.val line).awaitAck h line

/-- SNPINV: a holder in S or E, or one that no longer holds the line, invalidates its copy and acknowledges; where hosts hold halves
their answers come first (R411, R413, R422). -/
def execSnpinv (h : Holder) (line : Nat) (s : State) : Out :=
  let r := s.line line
  .next (if s.canSnoop h line && r.of h != .m && r.of h != .o then s.snoopTake h line else s)

/-- SNPINVD: an owner other than the home invalidates its copy and returns its data, from its write-back buffer where it has evicted it
(R411, R413); H asks its hosts first (R422). -/
def execSnpinvd (h : Holder) (line : Nat) (s : State) : Out :=
  .next (if s.canSnoop h line && (s.line line).owner == some h.val && h.val != s.homeDie (line * 128) then s.snoopTake h line else s)

/-- SNPFWD: the owner sends its data, from its write-back buffer where it has evicted it, to the requester named and becomes O, or S from E;
one that has evicted the line is its owner no longer, so that its WbD is discarded (R411, R413). -/
def execSnpfwd (h : Holder) (line : Nat) (g : Holder) (s : State) : Out :=
  let r := s.line line
  if r.owner ≠ some h.val ∨ h = 4 ∨ h.val = s.homeDie (line * 128) ∨ r.busy ≠ some g ∨ r.of g ≠ .i ∨ h = g
      ∨ s.noRoom g.val line then .next s
  else
    let s1 := s.fabRead g.val line
    .next (if r.wb.contains h then s1.invalidate h line else s1)

/-- SNPPASS: the home die's L2 evicts a line that it owns; the lowest-numbered die with a copy takes the ownership (R388, R412). -/
def execSnppass (h : Holder) (line : Nat) (s : State) : Out :=
  let home := s.homeDie (line * 128)
  let r := s.line line
  if (r.of home ≠ .m ∧ r.of home ≠ .o) ∨ !r.isOpen ∨ (List.range 4).find? (fun d => d != home && r.of d == .s) ≠ some h.val then .next s
  else .next (s.evictL2 home line)

/-- ACK: a snoop's acknowledgement reaches the home. Hosts that still hold what the snoop asks for keep H's back (R409, R422). -/
def execAck (h : Holder) (line : Nat) (s : State) : Out :=
  .next (if h = 4 ∧ !(s.line line).hostFree then s else s.acked h line)

/-- DATA: a line that a holder was asked or granted arrives with its poison bits; granules marked are poisoned at the destination (R409,
R442), and one that was not known to be makes its record, as one of the holder's L2 data (R446; DESIGN CHOICE, log entry 17). Where it answers a snoop it stands for the acknowledgement (R411). -/
def execData (h : Holder) (line : Nat) (poison : BitVec 16) (s : State) : Out :=
  let r := s.line line
  if r.acks.contains h || (r.busy == some h && r.of h != .i) then
    let new := (((List.range 16).filter (fun i => poison.getLsbD i)).map (fun i => 16 * line + i)).filter (fun g => !s.poison.contains g)
    execAck h line (new.foldl (fun a g =>
      let b := a.poisonMem [g]
      b.report (b.mkErr 0x05 1 (if h = 4 then 7 else h.val) 0 0 noTeam 0 (BitVec.ofNat 64 (8 * g)))) s)
  else .next s

/-! ## Hosts' halves (R421, R422) -/

/-- A CXL port in device role faces a host (R420). -/
def State.hostPort (s : State) : Bool := s.up && s.mgmt.hostPorts.any (!·)

/-- H's fabric state from the halves that hosts hold (R421). -/
def State.hState (s : State) (line : Nat) : State :=
  s.modLine line (fun r =>
    let v : Fab := if r.halves.contains .hm then .m else if r.halves.contains .hs then .s else .i
    { r with st := r.st.set 4 v, present := if v = .i then r.present &&& ~~~(16 : BitVec 5) else r.present ||| 16 })

/-- The state of a half at the host. -/
def State.setHalf (s : State) (line half : Nat) (v : Half) : State :=
  (s.modLine line (fun r => { r with
    halves := r.halves.set half v, asked := if v = .hm then r.asked else r.asked.set half none })).hState line

/-- A host's 64 bytes of a half reach the home: its write takes its point, after the posted stores that the host has seen, which it covers
(R284, R294, R422). -/
def State.hostMerge (s : State) (line half : Nat) (data : List Byte) : State :=
  let pa := 128 * line + 64 * half
  let under := s.pubClosure (fun p => overlaps p.pa p.bytes.length pa 64 && s.sees p .host)
  ({ s with mem := Memory.writes s.mem pa data, poison := clearPoison s.poison pa data.length,
            posted := s.posted.filter (fun p => !under.contains p) }).snoop line none false

/-- No snoop of the hosts for the line is unanswered: H has acknowledged (R422). -/
def State.hostsDone (s : State) (line : Nat) : State :=
  if (s.line line).asked.all (·.isNone) then s.acked 4 line else s

/-- A host's write-back of a half it holds in HM (R421). -/
def State.hostWriteback (s : State) (line half : Nat) (data : List Byte) : State :=
  if (s.line line).half half ≠ .hm ∨ data.length ≠ 64 then s
  else ((s.hostMerge line half data).setHalf line half .hi).hostsDone line

/-! ## Evictions and write-backs (R388, R411 to R413) -/

/-- The line leaves an L2 for the die's write-back buffer, until the home accepts its WbD (R413). -/
def State.writeBack (s : State) (h : Holder) (line : Nat) : State :=
  ((s.snoopDie h.val line).dropL1 h.val line none).modLine line (fun r => { r with wb := r.wb ++ [h] })

/-- The home accepts a WbD from a write-back buffer: from one that is no longer the owner it is discarded (R411). -/
def State.acceptWb (s : State) (h : Holder) (line : Nat) : State :=
  let r := s.line line
  let s1 := s.modLine line (fun r => { r with wb := r.wb.filter (· != h) })
  if r.of h = .m ∨ r.of h = .o then s1.invalidate h line else s1

/-- WBD: the write-back of an owner's evicted copy, or of a half of a host; from one that is no longer the owner it is discarded (R411,
R412). The home itself writes back only what no other die holds. -/
def execWbd (h : Holder) (line : Nat) (half : Option (Nat × List Byte)) (s : State) : Out :=
  let r := s.line line
  match half with
  | some (i, data) => .next (if h = 4 then s.hostWriteback line i data else s)
  | none =>
    if h = 4 then .next s
    else if r.wb.contains h then .next (if !r.shut && !s.trackerShut line then s.acceptWb h line else s)
    else if r.of h ≠ .m ∧ r.of h ≠ .o then .next s
    else if h.val = s.homeDie (line * 128) then
      .next (if r.isOpen && !(List.range 4).any (fun d => d != h.val && r.of d == .s) then s.evictL2 h.val line else s)
    else if r.engine.isSome then .next s
    else .next (if r.isOpen && !s.trackerShut line then s.evictL2 h.val line else s.writeBack h line)

/-- EVE: notice that a copy in E was evicted (R411, R412). -/
def execEve (h : Holder) (line : Nat) (s : State) : Out :=
  .next (if (s.line line).of h = .e ∧ (s.line line).isOpen ∧ !s.trackerShut line then s.evictL2 h.val line else s)

/-! ## Hosts (R421, R422) -/

/-- Posted stores of a line that the hosts have seen: a host's write covers them (R284). -/
def State.hostSaw (s : State) (line : Nat) (p : Posted) : Bool := p.pa / 128 == line && s.sees p .host

/-- OwnH: posted stores that the hosts have seen, or must see, go first; then every other copy goes and H owns the line, the half in HM (R284,
R287, R411, R421). -/
def State.grantHost (s : State) (line half : Nat) : State :=
  let s0 := (s.forced line .host).publish (s.hostSaw line)
  let s1 := (List.range 4).foldl (fun a d => a.invalidate d line) s0
  ((s1.snoop line none false).filterEnter 4 line).setHalf line half .hm

/-- A host takes a half exclusively: H asks for ownership (R421). -/
def State.hostExclusive (s : State) (line half : Nat) : State :=
  if 2 ≤ half ∨ !s.hostPort ∨ !s.populated (128 * line) ∨ (s.line line).half half = .hm then s
  else s.handle line (.ownh half) (!(s.filterRoom line).waits && !s.forcedShut line .host && s.canForce (s.hostSaw line))
    (fun x => (((x.recallLine line).urgeRoom line).urgePosted (forcedBy (x.outside line .host))).urgePosted (x.hostSaw line))
    (fun x => x.grantHost line half)

/-- OWNH: the bridge requests ownership of a line for a host (R411). -/
def execOwnh (line half : Nat) (s : State) : Out := .next (s.hostExclusive line half)

/-- HOST_EXCLUSIVE_HALF. -/
def execHostExclusiveHalf (line half : Nat) (s : State) : Out := .next (s.hostExclusive line half)

/-- H reads a line for a host's half: a line that H owns is served as it is (R421, R422). -/
def State.hostRead (s : State) (line half : Nat) : State :=
  let s1 := s.forced line .host
  (if (s1.line line).of 4 = .i then s1.fabRead 4 line else s1).setHalf line half .hs

/-- HOST_READ_HALF: a host takes a clean copy of a half (R421). -/
def execHostReadHalf (line half : Nat) (s : State) : Out :=
  if 2 ≤ half ∨ !s.hostPort ∨ !s.populated (128 * line) ∨ (s.line line).half half ≠ .hi then .next (s.leaveQueue line (.rdh half))
  else .next (s.handle line (.rdh half) (!s.noRoom 4 line && !s.forcedShut line .host)
    (fun x => (x.urgePosted (forcedBy (x.outside line .host))).recallLine line |>.urgeRoom line) (fun x => x.hostRead line half))

/-- HOST_WRITEBACK_HALF. -/
def execHostWritebackHalf (line half : Nat) (data : List Byte) (s : State) : Out := .next (s.hostWriteback line half data)

/-- A host's answer for a half that it was asked for: changed data is merged; after a read it keeps a clean copy, after a write none (R422). -/
def State.hostAnswer (s : State) (line half : Nat) (data : List Byte) (keep : Bool) : State :=
  match (s.line line).asked.getD half none, (s.line line).half half with
  | some (write, _), .hm =>
    if data.length ≠ 64 ∨ keep = write then s else (s.hostMerge line half data).setHalf line half (if keep then .hs else .hi)
  | some _, .hs => if keep then s else s.setHalf line half .hi
  | _, _ => s

/-- HOST_BI_RESPONSE: a host answers a back-invalidate snoop; once all are answered H has acknowledged (R422). DEDUCED, log entry 47. -/
def execHostBiResponse (line half : Nat) (data : List Byte) (keep : Bool) (s : State) : Out :=
  .next ((s.hostAnswer line half data keep).hostsDone line)

/-- A host gives up its halves in HM of a line, which are poisoned, and those that it was asked for and has not answered (R422). -/
def State.hostLost (s : State) (line : Nat) : State :=
  let r := s.line line
  let ask (h : Nat) : Bool := (r.asked.getD h none).isSome || r.half h == .hm
  let bad := (List.range 2).filter (fun h => r.half h == .hm)
  let s1 := s.poisonMem (bad.flatMap (fun h => (List.range 8).map (fun i => 16 * line + 8 * h + i)))
  ((List.range 2).filter ask).foldl (fun a h => a.setHalf line h .hi) s1

/-- HOST_BI_TIMEOUT: 10 ms after a snoop that the host has not answered the line's halves are given up, with one record (R422). DEDUCED, log
entry 47. -/
def execHostBiTimeout (line : Nat) (s : State) : Out :=
  match least ((s.line line).asked.filterMap (fun x => x.map (·.2))) with
  | none => .next s
  | some t =>
    if !s.errRoom 7 then .next s
    else
      let s1 := (s.passTicks (t + 18 * 10 ^ 7 - s.ticks)).hostLost line
      .next ((s1.report (s1.mkErr 0x0C 0 7 0 0 noTeam 0 (BitVec.ofNat 64 (128 * line)))).hostsDone line)

/-! ## Links (R402, R403) -/

/-- Two holders that a link joins. -/
def State.linkOk (s : State) (x y : Nat) : Bool :=
  s.up && x != y && (x == 4 || decide (x < s.sku.dies)) && (y == 4 || decide (y < s.sku.dies))

/-- The record of a link. -/
def State.link (s : State) (x y : Nat) : Link :=
  (s.links.find? (fun l => l.x == min x y && l.y == max x y)).getD { x := min x y, y := max x y, fails := 0, retrained := false }

/-- Replaces the record of a link. -/
def State.setLink (s : State) (l : Link) : State :=
  { s with links := s.links.filter (fun z => !(z.x == l.x && z.y == l.y)) ++ [l] }

/-- LINK_REPLAY: a flit failed its CRC; it and the later ones are sent again in order, and the replay fails too or succeeds (R403): which of
the two is a free value (DESIGN CHOICE, log entry 46). After 16 in a row that failed the link retrains first. -/
def execLinkReplay (x y : Nat) (s : State) : Out :=
  if !s.linkOk x y ∨ 16 ≤ (s.link x y).fails then .next s
  else
    let (n, s1) := s.draw
    .next (s1.setLink { s.link x y with fails := if Config.replayFails n then (s.link x y).fails + 1 else 0 })

/-- A package machine check: one record for every grid that has not finished, or one without a grid (R403, R446). -/
def State.checkMachine (s : State) (unit : Word) : State :=
  let ids := (s.grids.filter (fun g => !g.finished)).map (fun g => g.rcd.grid)
  let s1 := { s with machineCheck := true }
  (if ids = [] then [(0 : Word)] else ids).foldl (fun a g => a.report (a.mkErr 0x0D 0 7 0 g noTeam unit 0)) s1

/-- LINK_RETRAIN: after 16 failed replays in a row the link retrains once; where that fails a package machine check is raised (R403). The
H-die has number 7 in the record (R445). -/
def execLinkRetrain (x y : Nat) (ok : Bool) (s : State) : Out :=
  let l := s.link x y
  if !s.linkOk x y ∨ l.fails < 16 ∨ l.retrained then .next s
  else
    let s1 := s.setLink { l with fails := 0, retrained := !ok }
    .next (if ok then s1 else s1.checkMachine (BitVec.ofNat 32 (l.x + (if l.y = 4 then 7 else l.y) * 2 ^ 8)))

end Sys2Proof.Machine
end

