-- ==== Sys2Proof/Machine/Lanes.lean ====
section
/-! DEFINITION. Cross-lane exchange: SHFL and VOTE (R169 to R173). -/
namespace Sys2Proof.Machine

open Sys2Proof

/-! ## Shuffle (R170, R171) -/

/-- The four modes of SHFL. -/
inductive ShflMode where
  | idx | up | down | xor
deriving DecidableEq, Repr

/-- The source lane of lane L for a control word (R170). -/
def shflSource (m : ShflMode) (wwid : Nat) (c : Word) (L : Nat) : Nat :=
  let n := bits c.toNat 6 0
  let g := bits c.toNat 10 8
  let sg := if g = 0 ∨ g = 7 then wwid else min (2 ^ g) wwid
  let base := L - L % sg
  let o := L % sg
  match m with
  | .idx => base + n % sg
  | .up => base + (((o : Int) - n) % (sg : Int)).toNat
  | .down => base + (o + n) % sg
  | .xor => base + (o ^^^ n % sg)

/-- What an indexed A adds to the checks of lane L: it is resolved with the index registers of the lane's source (R171). -/
def shflFar (m : ShflMode) (a c : VReg) (w : Warp) (L : Nat) : Nat × List Nat :=
  let l := w.lane (shflSource m w.width ((w.lane L).v w.alloc c) L)
  match a with
  | .ix _ =>
    if (resolve w.alloc (w.lane L) c 1).isNone ∨ l.life ≠ .live then (0, [])
    else
      match resolve w.alloc l a 1 with
      | none => (2, [])
      | some r => (0, r.toList)
  | _ => (0, [])

/-- What lane L finds in register A of source lane `src` (R171). -/
def shflValue (w : Warp) (a : VReg) (src : Nat) : LTrap ⊕ Word :=
  let l := w.lane src
  if l.life ≠ .live then .inr 0
  else
    match resolve w.alloc l a 1 with
    | some (some r) => if l.badRegs.contains r then .inl ⟨cMCHECK, 3, 0⟩ else .inr (l.reg r)
    | _ => .inr 0

/-- Correctable errors in the words that a shuffle reads of its source lanes are corrected as they are read, and counted (R306, R447). -/
def shflSoft (x : Ctx) (s : State) (w : Warp) (a : VReg) (src : Nat → Nat) : State × Warp :=
  let hits := (x.lanes.filterMap (fun L =>
    let l := w.lane (src L)
    match resolve w.alloc l a 1 with
    | some (some r) => if l.life = .live ∧ l.softRegs.contains r then some (src L, r) else none
    | _ => none)).eraseDups
  if hits = [] then (s, w)
  else
    (s.countCorr w.die w.core 4 hits.length,
     hits.foldl (fun v h => v.lasting id (fun ls => ls.modify h.1 (fun l => { l with softRegs := l.softRegs.filter (· != h.2) })) id) w)

/-- SHFL: every source is read before any destination is written (R169). -/
def shflOp (b : Bool) (d a c : VReg) (m : ShflMode) (s : State) : Out :=
  -- an indexed A is checked in the source lane
  let ua : List Use := match a with | .v _ => [⟨2, a, 1, false, false⟩] | _ => []
  issue { b := b, u := { regs := [⟨1, d, 1, false, true⟩] ++ ua ++ [⟨4, c, 1, true, false⟩], var := true }, far := shflFar m a c } (fun x s w =>
    let src (L : Nat) : Nat := shflSource m w.width ((w.lane L).v w.alloc c) L
    let y := shflSoft x s w a src
    Eff.perLane x y.1 y.2 (fun L l =>
      match shflValue w a (src L) with
      | .inl t => { l := l, trap := some t }
      | .inr v => .ok (l.setV w.alloc d v))) s

/-- SHFL.IDX. -/
def execShflIdx (d a c : VReg) (b : Bool) (s : State) : Out := shflOp b d a c .idx s
/-- SHFL.UP. -/
def execShflUp (d a c : VReg) (b : Bool) (s : State) : Out := shflOp b d a c .up s
/-- SHFL.DOWN. -/
def execShflDown (d a c : VReg) (b : Bool) (s : State) : Out := shflOp b d a c .down s
/-- SHFL.XOR. -/
def execShflXor (d a c : VReg) (b : Bool) (s : State) : Out := shflOp b d a c .xor s

/-! ## Vote (R172, R173) -/

/-- Active lanes in which a predicate is true. -/
def Ctx.ballot (x : Ctx) (w : Warp) (p : PReg) : Mask := maskOf (x.lanes.filter (fun L => (w.lane L).pred p))

/-- A vote that writes a predicate in each active lane: `f` has the lane, the ballot and the active mask. -/
def votePred (b : Bool) (d : PReg) (src : List PReg) (f : Nat → Mask → Mask → Bool) (s : State) : Out :=
  issue { b := b, u := { ps := src, pd := [d] } } (fun x s w =>
    let m := x.ballot w (src.headD 7)
    Eff.perLane x s w (fun L l => .ok (l.setPred d (f L m x.mask)))) s

/-- A vote that writes a mask to a scalar pair, once per warp (R173). -/
def voteMask (b : Bool) (d : SReg) (src : List PReg) (f : Ctx → Warp → Mask) (s : State) : Out :=
  issue { b := b, u := { ps := src, sd := [d.val, d.val + 1] }, cyc := (1, 1, 1), tx := false }
    (fun x s w => { s := s, w := w.setSP d.val (f x w) }) s

/-- VOTE.ANY. -/
def execVoteAny (d a : PReg) (b : Bool) (s : State) : Out := votePred b d [a] (fun _ m _ => m != 0) s
/-- VOTE.ALL. -/
def execVoteAll (d a : PReg) (b : Bool) (s : State) : Out := votePred b d [a] (fun _ m act => m == act) s
/-- VOTE.EQ. -/
def execVoteEq (d a : PReg) (b : Bool) (s : State) : Out := votePred b d [a] (fun _ m act => m == act || m == 0) s
/-- VOTE.BALLOT. -/
def execVoteBallot (d : SReg) (a : PReg) (b : Bool) (s : State) : Out := voteMask b d [a] (fun x w => x.ballot w a) s
/-- VOTE.MATCH. A lane that traps, or aborts, is no lane of a group (DESIGN CHOICE, log entry 67). -/
def execVoteMatch (d a : VReg) (b : Bool) (s : State) : Out :=
  issue { b := b, u := { regs := [⟨1, d, 2, false, true⟩, ⟨2, a, 1, true, false⟩] } } (fun x s w =>
    Eff.perLane x s w (fun _ l =>
      let same := x.lanes.filter (fun M => (w.lane M).v w.alloc a == l.v w.alloc a)
      .ok (l.wr w.alloc d [BitVec.ofNat 32 (same.headD 0), BitVec.ofNat 32 same.length]))) s
/-- VOTE.ACTIVE. -/
def execVoteActive (d : SReg) (b : Bool) (s : State) : Out := voteMask b d [] (fun x _ => x.mask) s
/-- VOTE.ELECT. -/
def execVoteElect (d : PReg) (b : Bool) (s : State) : Out := votePred b d [] (fun L _ act => L == lowestLane act) s

end Sys2Proof.Machine
end

