-- ==== Sys2Proof/Machine/Platform.lean ====
section
/-! DEFINITION. Errors met in stored bits and their records (R441 to R447), the control windows (R353, R363, R397, R444, R450,
R456), boot, firmware and attestation (R451 to R455), and power (R456 to R458). -/
namespace Sys2Proof.Machine

open Sys2Proof

/-! ## The error queue and correctable errors (R444, R447) -/

/-- The H-die interrupts the operating system for the error queue: it is not empty (R444). -/
def State.errIrq (s : State) : Bool := s.err.eqhead.toNat % 4096 != s.err.eqtail.toNat % 4096

/-- ERROR_RECORD_FLUSH: the oldest record that a die holds, 7 for the H-die, goes into the ring once it has space, where no older one awaits
space (R444, R449); an agent that waits for the die's hold then reports. -/
def execErrorRecordFlush (d : Nat) (s : State) : Out :=
  match s.errHeld d with
  | [] => .next s
  | r :: rest =>
    if s.errFull ∨ s.err.order.head? ≠ some d then .next s
    else if s.errShut then .next (s.urge s.errSlot 128 true)
    else
      let s0 := { s with err := { s.err with order := s.err.order.tail } }
      let s1 := if d < 4 then s0.modDie d (fun x => { x with heldErr := rest })
        else { s0 with err := { s0.err with held := rest } }
      .next ((s1.errPut r).errResume d)

/-- Ticks of a millisecond. -/
def msTicks : Nat := 18 * 10 ^ 6

/-- CORRECTABLE_RECORD: the errors counted for a unit and store since its last record are reported, at most once per millisecond;
while the queue is full they go into EQCORR (R444, R447). -/
def execCorrectableRecord (d k store : Nat) (s : State) : Out :=
  match s.err.corr.find? (fun x => x.1 == d && x.2.1 == k && x.2.2.1 == store) with
  | none => .next s
  | some (_, _, _, n, last) =>
    if n = 0 then .next s
    else if !s.errFull ∧ s.errShut then .next (s.urge s.errSlot 128 true)
    else
      let s1 := match last with
        | none => s
        | some t => s.passTicks (t + msTicks - s.ticks)
      let put (a : State) (v : Option Nat) : State := { a with err := { a.err with corr := a.err.corr.map (fun x =>
        if x.1 = d ∧ x.2.1 = k ∧ x.2.2.1 = store then (d, k, store, 0, v) else x) } }
      if s1.errFull then
        .next (put { s1 with err := { s1.err with eqcorr := s1.err.eqcorr + BitVec.ofNat 64 n } } last)
      else .next (put (s1.errPut (s1.mkErr 0x06 store d k 0 noTeam (BitVec.ofNat 32 n) 0)) (some s1.ticks))

/-- The hottest junction has reached 105 °C: the package asks for the removal of its main rails; the next boot reports it (R458). -/
def State.tripIf (s : State) : State :=
  if 16 * 105 ≤ s.pwr.temp ∧ s.pwr.rails then
    { s with pwr := { s.pwr with tripped := true }, mgmt := { s.mgmt with tripReport := true } }
  else s

/-- A core's junction has a temperature, in 1/16 °C: TEMP is that of the hottest, and the trip at 105 °C depends on no firmware (R456, R458). -/
def State.heat (s : State) (d k : Nat) (t : Int) : State :=
  let s1 := s.modCore d k (fun c => { c with temp := t })
  State.tripIf { s1 with pwr := { s1.pwr with temp := s1.cores.foldl (fun m c => max m c.temp.toNat) 0 } }

/-- TEMPERATURE_BAND_EXIT: a core's junction has a temperature; more than 15 °C away from that of its last calibration it is reported, once
until the next one (R324). -/
def execTemperatureBandExit (d k : Nat) (t : Int) (s : State) : Out :=
  let c := s.core d k
  if s.sku.dies ≤ d ∨ 96 ≤ k ∨ !s.pwr.rails then .next s
  else
    let s2 := s.heat d k t
    if (t - c.calTemp).natAbs ≤ 240 ∨ c.bandOut ∨ !s.up then .next s2
    else .next ((s2.report (s2.mkErr 0x0B 0 d k 0 noTeam 0 0)).modCore d k (fun c => { c with bandOut := true }))

/-! ## Soft errors (R306, R308, R326 to R328, R341, R441 to R443) -/

/-- Store of R441, by row; 0 for a CXL device, which has no row (DESIGN CHOICE, log entry 17). -/
def storeRow : SoftLoc → Nat
  | .memory pa => match tierOf pa with | 0 => 2 | 1 => 3 | _ => 0
  | .device _ _ => 0
  | .l1 _ _ _ | .l2 _ _ | .icache _ _ => 1
  | .laneReg _ _ _ => 4
  | .window _ _ _ | .stack _ _ _ | .spill _ _ => 5
  | .array _ _ _ => 6
  | .rowBuffer _ _ _ | .scale _ _ _ => 7
  | .accum _ _ _ => 8
  | .shadowLog _ _ => 9
  | .warpState _ | .cooper _ _ _ _ | .tlb _ _ _ | .l2tlb _ _ | .directory _ => 10

/-- Die and core of the store that an error strikes; core 0 where the store belongs to no core. -/
def State.softPlace (s : State) (l : SoftLoc) : Nat × Nat :=
  let w (u : Nat) : Nat × Nat := match s.warp? u with | some w => (w.die, w.core) | none => (0, 0)
  match l with
  | .memory pa => (s.homeDie pa, 0)
  | .laneReg u _ _ | .window u _ _ | .stack u _ _ | .spill u _ | .shadowLog u _ | .warpState u => w u
  | .array d k _ | .rowBuffer d k _ | .scale d k _ | .accum d k _ | .cooper d k _ _ | .tlb d k _ | .icache d k | .l1 d k _ => (d, k)
  | .directory d | .l2 d _ | .l2tlb d _ => (d, 0)
  | .device _ _ => (7, 0)

/-- Poison found for the first time makes one record (R442). -/
def State.poisonFound (s : State) (l : SoftLoc) (grid team : Word) (addr : Nat) (fresh : Bool) (f : State → State) : State :=
  let p := s.softPlace l
  if !fresh then f s else (f s).report ((f s).mkErr 0x05 (storeRow l) p.1 p.2 grid team 0 (BitVec.ofNat 64 addr))

/-- Grid and team of a record about a lane's state. -/
def State.laneIds (s : State) (u L : Nat) : Word × Word :=
  match s.warp? u with
  | some w => (s.gridId w.gk, (w.lane L).team)
  | none => (0, noTeam)

/-- Grid, team and storage-view offset of a byte of a core's array memory. -/
def State.arrayIds (s : State) (d k off : Nat) : Word × Word × Nat :=
  match ((s.core d k).units.getD (off / 12288) CimUnit.init).owner with
  | none => (0, noTeam, 0)
  | some (gk, i) =>
    match s.team? gk i with
    | none => (0, noTeam, 0)
    | some t => (s.gridId gk, BitVec.ofNat 32 i,
        12288 * (off / 12288 - t.p0 + (if k = t.core then 0 else t.units)) + off % 12288)

/-- Grid and team of a core's matrix memories. -/
def State.matIds (s : State) (d k : Nat) : Word × Word :=
  match (s.core d k).mat with
  | some (gk, i) => (s.gridId gk, BitVec.ofNat 32 i)
  | none => (0, noTeam)

/-- Every team with a live lane in a warp whose state is struck fails (R271, R443). -/
def State.warpFails (s : State) (u : Nat) : State :=
  match s.warp? u with
  | none => s
  | some w => s.failTeams w w.liveMask cMCHECK 0 []

/-- A granule of a core's memory is poisoned, as it is found to be (R441, R442). -/
def State.ramError (s : State) (l : SoftLoc) (d k off : Nat) (r : Core → Ram) (set : Core → Ram → Core) : State :=
  let i := s.matIds d k
  s.poisonFound l i.1 i.2 0 (!(r (s.core d k)).poison.contains (off / 8)) (fun a =>
    a.modCore d k (fun c => set c ((r c).poisonAt [off / 8])))

/-- Granules of memory are poisoned, as they are found to be: each makes its record (R442). -/
def State.memError (s : State) (l : SoftLoc) (gs : List Nat) : State :=
  gs.foldl (fun a g => a.poisonFound l 0 noTeam (8 * g) (!a.poison.contains g) (fun b => b.poisonMem [g])) s

/-- A register word of a lane has an uncorrectable or a correctable error, in what an abort leaves as it is too: a word that the transaction has
written comes back as it was (R220, R306). -/
def Lane.strikeWord (unc : Bool) (r : Nat) (l : Lane) : Lane :=
  let bad (x : List Nat) : List Nat := if unc then setPut x r else x
  let soft (x : List Nat) : List Nat := if unc then x else setPut x r
  let l1 := { l with badRegs := bad l.badRegs, softRegs := soft l.softRegs }
  if l.tx.logged.contains r then l1
  else { l1 with tx := { l.tx with save := l.tx.save.map (fun v => { v with badRegs := bad v.badRegs, softRegs := soft v.softRegs }) } }

/-- A register word of a lane is struck: a rollback that does not restore it leaves the error (R306, R340). -/
def Warp.strikeReg (w : Warp) (L r : Nat) (f : Lane → Lane) : Warp :=
  let w1 := w.modLane L f
  { w1 with window := w1.window.map (fun v =>
      let sv (x : Save) : Save :=
        if v.log.any (fun e => e.item == .reg r && decide (x.seq ≤ e.seq)) then x else { x with lanes := x.lanes.modify L f }
      { v with save := sv v.save, points := v.points.map sv }) }

/-- A word of a lane's private memory is struck: a rollback or an abort discards stores, not the error (R308, R340). -/
def Warp.strikeLane (w : Warp) (L : Nat) (f : Lane → Lane) : Warp := w.lasting id (fun ls => ls.modify L f) id

/-- A granule of a lane's window is poisoned, in what an abort restores too. -/
def Lane.poisonWin (g : Nat) (l : Lane) : Lane :=
  { l with winPoison := setPut l.winPoison g
           tx := { l.tx with save := l.tx.save.map (fun v => { v with winPoison := setPut v.winPoison g }) } }

/-- The entry of a lane's return stack is poisoned, counted from the oldest, in what an abort restores too. -/
def Lane.poisonStack (e : Nat) (l : Lane) : Lane :=
  let put (st : List DWord) (p : List Nat) : List Nat := if e < st.length then setPut p e else p
  { l with stackPoison := put l.stack l.stackPoison
           tx := { l.tx with save := l.tx.save.map (fun v => { v with stackPoison := put v.stack v.stackPoison }) } }

/-- A word of a warp's spill area is poisoned, whatever a rollback restores (R308, R340). -/
def Warp.strikeSpill (w : Warp) (e : FEntry) : Warp :=
  w.lasting (fun f => f.map (fun x => if x = e then { x with bad := true } else x)) id id

/-- Some Cooper record of a core is a team's. -/
def Cooper.holdsTeam (c : Cooper) (gk i : Nat) : Bool :=
  (c.store ++ c.parts.flatMap Partial.held).any (fun r => r.gk == gk && r.team == i)

/-- The granules that an uncorrectable error at a byte of memory poisons: those of its 32-byte sector, or of the 64 bytes that a CXL device is
read in, where the home has no copy and reads it (R423, R441; DESIGN CHOICE, log entry 17). -/
def State.struckGranules (s : State) (pa : Nat) : List Nat :=
  if !s.populated pa then []
  else if tierOf pa < 2 then (List.range 4).map (fun i => pa / 32 * 4 + i)
  else if (s.line (pa / 128)).owner.isSome || (s.line (pa / 128)).of (s.homeDie pa) != .i then []
  else (List.range 8).map (fun i => pa / 64 * 8 + i)

/-- What an uncorrectable error does (R441). -/
def State.uncorrectable (s : State) (l : SoftLoc) : State :=
  match l with
  | .memory pa => s.memError l (s.struckGranules pa)
  | .l1 d k pa => if (s.core d k).l1.any (fun x => x.line == pa / 128) then s.memError l [pa / 8] else s
  | .l2 d pa => if d < 4 ∧ (s.line (pa / 128)).of d ≠ .i then s.memError l [pa / 8] else s
  | .icache d k => s.modCore d k (fun c => { c with icache := [] })
  | .laneReg u L r => s.modWarp u (fun w => w.strikeReg L r (Lane.strikeWord true r))
  | .window u L off =>
    let i := s.laneIds u L
    let new : Bool := match s.warp? u with | some w => !(w.lane L).winPoison.contains (off / 8) | none => false
    s.poisonFound l i.1 i.2 0 new (fun a =>
      a.modWarp u (fun w => w.strikeLane L (Lane.poisonWin (off / 8))))
  | .stack u L e =>
    let i := s.laneIds u L
    let new : Bool := match s.warp? u with
      | some w => decide (e < (w.lane L).stack.length) && !(w.lane L).stackPoison.contains ((w.lane L).stack.length - 1 - e)
      | none => false
    s.poisonFound l i.1 i.2 0 new (fun a => a.modWarp u (fun w =>
      w.strikeLane L (Lane.poisonStack ((w.lane L).stack.length - 1 - e))))
  | .spill u i =>
    match (s.warp? u).bind (fun w => (spilled w.front)[i]?) with
    | none => s
    | some e => s.poisonFound l (s.laneIds u (lowestLane e.mask)).1 (s.laneIds u (lowestLane e.mask)).2 0 (!e.bad) (fun a =>
        a.modWarp u (fun w => w.strikeSpill e))
  | .array d k off =>
    let i := s.arrayIds d k off
    s.poisonFound l i.1 i.2.1 i.2.2 (!(s.core d k).arrPoison.contains (off / 8)) (fun a =>
      a.modCore d k (fun c => { c with arrPoison := setPut c.arrPoison (off / 8) }))
  | .rowBuffer d k off => s.ramError l d k off (·.rowBuf) (fun c r => { c with rowBuf := r })
  | .scale d k off => s.ramError l d k off (·.scale) (fun c r => { c with scale := r })
  | .accum d k off => s.ramError l d k off (·.acc) (fun c r => { c with acc := r })
  | .shadowLog u e => s.modWarp u (fun w => { w with window := w.window.map (fun v =>
      { v with log := v.log.mapIdx (fun j x => if j + 1 + e = v.log.length then { x with bad := true } else x) }) })
  | .warpState u => s.warpFails u
  | .cooper d k gk i => if (s.core d k).cooper.holdsTeam gk i then s.failTeam gk i cMCHECK d k 0 [] else s
  | .tlb d k i => s.modCore d k (fun c => { c with tlb := c.tlb.eraseIdx i })
  | .l2tlb d i => s.modDie d (fun x => { x with l2tlb := x.l2tlb.eraseIdx i })
  | .directory _ => s.checkMachine 0
  | .device n m => { s with mmu := { s.mmu with lost := s.mmu.lost ++ [(n, m)] } }

/-- SOFT_ERROR: a stored bit is corrupted. What the code corrects is counted; in a macro it stays until it is scrubbed, and in a register until
it is read (R306); what it only detects meets the fate of its store (R441, DESIGN CHOICE, log entry 17). -/
def execSoftError (l : SoftLoc) (unc : Bool) (s : State) : Out :=
  s.whenUp <| if unc then .next (s.uncorrectable l)
  else
    match l with
    | .array d k off => .next (s.modCore d k (fun c => { c with units := c.units.modify (off / 12288) (fun u =>
        { u with soft := setPut u.soft (off % 12288 / 8) }) }))
    | .laneReg u L r => .next (s.modWarp u (fun w => w.strikeReg L r (Lane.strikeWord false r)))
    | _ => .next (s.countCorr (s.softPlace l).1 (s.softPlace l).2 (storeRow l) 1)

/-! ## Power (R456 to R458) -/

/-- PSTATE_SET: a write of PCMD (R456, R457). -/
def execPstateSet (v : DWord) (s : State) : Out :=
  let x := v.toNat
  s.whenUp <| if bits x 7 4 ≠ 0 ∨ bits x 63 10 ≠ 0 ∨ bits x 9 8 = 3 then .next s
  else if s.pwr.busy then .next { s with pwr := { s.pwr with drop := true } }
  else
    .next { s with
      pwr := { s.pwr with busy := true }
      dies := s.dies.mapIdx (fun i d => if x.testBit i && decide (i < s.sku.dies) then { d with pnext := some (bits x 9 8) } else d) }

/-- A die runs at another P-state; its count of cycles goes on (R10, R457). -/
def Die.atState (d : Die) (p : Nat) : Die := { d with pstate := p, rest := d.rest % ticksPerCycle p }

/-- PSTATE_CHANGE_DONE: every named die has changed its clock, and BUSY clears (R457). DESIGN CHOICE, log entry 50. -/
def execPstateChangeDone (s : State) : Out :=
  if !s.pwr.busy then .next s
  else
    .next { s with
      pwr := { s.pwr with busy := false }
      dies := s.dies.map (fun d => match d.pnext with | some p => { d.atState p with pnext := none } | none => d) }

/-- PSTAT_CLEAR: bits written as 1 clear DROP and THROT (R456). -/
def execPstatClear (v : DWord) (s : State) : Out :=
  s.whenUp (.next { s with pwr := { s.pwr with drop := s.pwr.drop && !v.getLsbD 16, throt := s.pwr.throt && !v.getLsbD 17 } })

/-- PLIMIT_WRITE: clamped to half the module figure and the figure (R456). -/
def execPlimitWrite (v : DWord) (s : State) : Out :=
  s.whenUp (.next { s with pwr := { s.pwr with plimit := min (max v.toNat (s.sku.watts / 2)) s.sku.watts } })

/-- POWER_LIMIT_THROTTLE: the firmware lowers a die's clock to keep within PLIMIT; a command that it has accepted is carried out as well (R457). -/
def execPowerLimitThrottle (d p : Nat) (s : State) : Out :=
  if s.sku.dies ≤ d ∨ p ≤ (s.die d).pstate ∨ 2 < p ∨ !s.up then .next s
  else .next ({ s with pwr := { s.pwr with lowered := true } }.modDie d (fun x => x.atState p))

/-- CURRENT_CLAMP: the die skips an issue cycle and sets THROT (R458). -/
def execCurrentClamp (d : Nat) (s : State) : Out :=
  if s.sku.dies ≤ d ∨ !s.up then .next s else .next ({ s with pwr := { s.pwr with throt := true } }.passCycles d 1)

/-- THERMAL_TRIP: the hottest junction stands at 105 °C or above (R458). -/
def execThermalTrip (s : State) : Out := .next s.tripIf

/-! ## Boot (R5, R382, R420, R451 to R455) -/

/-- What outlasts a reset: the part, its flash, its fuses, what the board fitted, and messages sent. -/
def State.bare (s : State) : State :=
  { State.reset with
    sku := s.sku, ddr := min s.mgmt.fitted s.sku.lpddrGiB / 32 * 32, free := s.free + 1, nextUid := s.nextUid
    pwr := { State.reset.pwr with plimit := s.sku.watts }
    mgmt := { State.reset.mgmt with
      boot := .off, slotA := s.mgmt.slotA, slotB := s.mgmt.slotB, firstB := s.mgmt.firstB, osImage := s.mgmt.osImage
      secret := s.mgmt.secret, keyHash := s.mgmt.keyHash
      svnFuse := s.mgmt.svnFuse, out := s.mgmt.out, tripReport := s.mgmt.tripReport, fitted := s.mgmt.fitted
      serial := s.mgmt.serial, osRuns := false } }

/-- MAIN_RAILS_OFF: every function loses power and state (R5). -/
def execMainRailsOff (s : State) : Out := .next { s.bare with pwr := { s.bare.pwr with rails := false } }

/-- The value of bytes with the first the most significant. -/
def beNat (bs : List Byte) : Nat := bs.foldl (fun n b => 256 * n + b.toNat) 0

/-- The digest of an image's body as the header gives it. -/
def imageDigest (im : List Byte) : BitVec 384 := BitVec.ofNat 384 (beNat ((im.drop 0x10).take 48))

/-- The body of an image. -/
def imageBody (im : List Byte) : List Byte := (im.drop 0x101).take (leNat ((im.drop 8).take 8))

/-- SVN of an image. -/
def imageSvn (im : List Byte) : Nat := leNat ((im.drop 4).take 4)

/-- An image is accepted under a key hash and a least SVN (R452). -/
def imageOk (im : List Byte) (keyHash : BitVec 384) (svn : Nat) : Bool :=
  let n := leNat ((im.drop 8).take 8)
  let key := (im.drop 0xA0).take 97
  leNat (im.take 4) == 0x4A465746 && n % 4096 == 0 && decide (0x101 + n ≤ im.length)
    && Config.sha384 key == keyHash && Config.ecdsaVerify (Config.sha384 (im.take 0x40)) key ((im.drop 0x40).take 96)
    && Config.sha384 (imageBody im) == imageDigest im && decide (svn ≤ imageSvn im)

/-- The firmware image that boots, and whether it stands in slot B: slot A is tried first (R451), or slot B where it holds the last update (R455;
DESIGN CHOICE, log entry 18). -/
def Mgmt.choose (m : Mgmt) : Option (List Byte × Bool) :=
  let a : Option (List Byte × Bool) := if imageOk m.slotA m.keyHash m.svnFuse then some (m.slotA, false) else none
  let b : Option (List Byte × Bool) := if imageOk m.slotB m.keyHash m.svnFuse then some (m.slotB, true) else none
  if m.firstB then b.or a else a.or b

/-- What the runtime and the operating system set up as they start: the device number, the route table and the export table (R435, R436; DESIGN
CHOICE, DESIGN CHOICE, log entry 53). -/
def State.startOs (s : State) : State :=
  let im := s.mgmt.osImage
  { s with
    mgmt := { s.mgmt with osRuns := true, dev := Config.deviceNumber im % 2 ^ 19 }
    net := { s.net with
      routes := (Config.routeTable im).filter (fun r => decide (r.1 < 2 ^ 19))
      exports := (Config.exportTable im).filter (fun x => decide (x.1 < 2 ^ 19) && decide (x.2.1 < 2 ^ 14) && decide (x.2.2 < 2 ^ 14)) } }

/-- The package boots: firmware, memory and links, C-dies at P2 with their cores in groups of 8 every microsecond, MCAL on every core, the
operating system, which is checked by the method of R452 (R451). Time counts from the start of the dies (DESIGN CHOICE, log entry 18). -/
def State.boot (s : State) : State :=
  let s0 := s.bare
  match s0.mgmt.choose with
  | none => { s0 with mgmt := { s0.mgmt with boot := .recovery } }
  | some (im, b) =>
    let body := imageBody im
    let ok := imageOk s0.mgmt.osImage (Config.policyKeyHash body) s0.mgmt.svnFuse
    let cycles := 11 * 900 + 20000
    let ports := (List.range 2).map (Config.policyHostRole body)
    let left := s0.mgmt.fitted - s0.ddr
    let s1 : State := { s0 with
      ticks := 20 * cycles
      pwr := { s0.pwr with plimit := min (max (Config.policyWatts body) (s0.sku.watts / 2)) s0.sku.watts }
      dies := s0.dies.map (fun d => { d with cycles := cycles })
      cores := s0.cores.mapIdx (fun i c => { c with powered := 900 * (i % 96 / 8) })
      mmu := { s0.mmu with tier2 := if ports.any id then Config.cxlFrames body else 0 }
      mgmt := { s0.mgmt with
        boot := .running, bootedB := b, svn := imageSvn im
        svnFuse := if s0.mgmt.svnFuse < imageSvn im ∧ Config.advancesSvn im then min (imageSvn im) 63 else s0.mgmt.svnFuse
        meas := [Config.bootRomDigest, Config.sha384 body, Config.policyDigest body, Config.sha384 s0.mgmt.osImage]
        hostPorts := ports
        out := s0.mgmt.out ++ (if s0.mgmt.tripReport then [Config.tripMessage] else [])
          ++ (if left = 0 then [] else [Config.ddrMessage left])
        tripReport := false } }
    if ok then s1.startOs else s1

/-- POWER_ON_BOOT: the main rails come up (R451). -/
def execPowerOnBoot (s : State) : Out := .next (if s.pwr.rails then s else s.boot)

/-- MANAGEMENT_RESET (R455). -/
def execManagementReset (s : State) : Out := .next (if s.pwr.rails then s.boot else s)

/-- FIRMWARE_UPDATE: the image goes to the slot that did not boot and takes effect at the next reset; in recovery to either slot, as it is sent
(R451, R455; DESIGN CHOICE, log entry 18). -/
def execFirmwareUpdate (im : List Byte) (s : State) : Out :=
  match s.mgmt.boot with
  | .off => .next s
  | .recovery =>
    let (n, s1) := s.draw
    .next { s1 with mgmt := if Config.recoverySlotB n then { s1.mgmt with slotB := im } else { s1.mgmt with slotA := im } }
  | .running =>
    .next { s with mgmt := if s.mgmt.bootedB then { s.mgmt with slotA := im, firstB := false } else { s.mgmt with slotB := im, firstB := true } }

/-! ## Attestation (R453, R454) -/

/-- How far a session is. -/
def Spdm.stage : Spdm → Nat
  | .start => 0 | .version => 1 | .caps => 2 | .algs => 3 | .keyExchanged => 4 | .session => 5

/-- Bytes of a digest. -/
def digestBytes (d : BitVec 384) : List Byte := (toBytes 48 d.toNat).reverse

/-- The algorithms that the controller supports (R454). -/
def supportedAlgs : List SpdmAlg := [.ecdsaP384, .sha384, .aes256Gcm]

/-- What the controller reports of an algorithm: the bit that stands for it in SPDM's mask of its kind. DESIGN CHOICE, log entry 8. -/
def SpdmAlg.report : SpdmAlg → List Byte
  | .ecdsaP384 => toBytes 4 0x80
  | .sha384 => toBytes 4 0x02
  | .aes256Gcm => toBytes 2 0x02

/-- The private identity key, which the boot root derives from the fused secret (R453). -/
def Mgmt.identity (m : Mgmt) : BitVec 384 := Config.identityKey m.secret

/-- The certificate chain to the identity public key (R453). -/
def Mgmt.chain (m : Mgmt) : List Byte := Config.certificateChain (Config.publicKey m.identity)

/-- The controller answers a request; one that comes too early in the session leaves the session as it is (R454). The response is DMTF
SPDM 1.3's, from the request, the transcript and what it reports; within a session it is sealed with AES-256-GCM (DESIGN CHOICE, log entry 8). -/
def State.spdmAnswer (s : State) (code : Nat) (req report : List Byte) (need : Nat) (nx : Option Spdm) : Out :=
  if s.mgmt.boot ≠ .running then .next s
  else
    let r := Config.spdmResponse code req (s.mgmt.transcript ++ report)
    let sent := if s.mgmt.spdm = .session ∧ code ≠ 0x84 then s.mgmt.sessionKey.elim r (fun k => Config.aes256GcmSeal k r) else r
    let m1 := { s.mgmt with out := s.mgmt.out ++ [sent] }
    if s.mgmt.spdm.stage < need then .next { s with mgmt := m1 }
    else
      let old := if code = 0x84 then [] else s.mgmt.transcript
      let all := old ++ req ++ r
      .next { s with mgmt := { m1 with
        transcript := all
        spdm := nx.getD s.mgmt.spdm
        algs := (match nx with | some .version => [] | some .algs => supportedAlgs | _ => s.mgmt.algs)
        sessionKey := (match nx with | some .version => none | some .keyExchanged => some (Config.sessionKey all) | _ => s.mgmt.sessionKey) } }

/-- GET_VERSION: a session begins anew. -/
def execGetVersion (req : List Byte) (s : State) : Out := s.spdmAnswer 0x84 req [] 0 (some .version)
/-- GET_CAPABILITIES. -/
def execGetCapabilities (req : List Byte) (s : State) : Out := s.spdmAnswer 0xE1 req [] 1 (some .caps)
/-- NEGOTIATE_ALGORITHMS. -/
def execNegotiateAlgorithms (req : List Byte) (s : State) : Out :=
  s.spdmAnswer 0xE3 req (supportedAlgs.flatMap SpdmAlg.report) 2 (some .algs)
/-- GET_DIGESTS. -/
def execGetDigests (req : List Byte) (s : State) : Out :=
  s.spdmAnswer 0x81 req (digestBytes (Config.sha384 s.mgmt.chain)) 3 none
/-- GET_CERTIFICATE. -/
def execGetCertificate (req : List Byte) (s : State) : Out := s.spdmAnswer 0x82 req s.mgmt.chain 3 none
/-- CHALLENGE: signed by the identity key. -/
def execChallenge (req : List Byte) (s : State) : Out :=
  s.spdmAnswer 0x83 req (Config.identitySign s.mgmt.identity (s.mgmt.transcript ++ req)) 3 none
/-- GET_MEASUREMENTS: measurements 1 to 4. -/
def execGetMeasurements (req : List Byte) (s : State) : Out := s.spdmAnswer 0xE0 req (s.mgmt.meas.flatMap digestBytes) 3 none
/-- KEY_EXCHANGE. -/
def execKeyExchange (req : List Byte) (s : State) : Out :=
  s.spdmAnswer 0xE4 req (Config.identitySign s.mgmt.identity (s.mgmt.transcript ++ req)) 3 (some .keyExchanged)
/-- FINISH. -/
def execFinish (req : List Byte) (s : State) : Out := s.spdmAnswer 0xE5 req [] 4 (some .session)

/-! ## The control windows (R450) -/

/-- The demotion interrupts after a change of frame counts: raised below TLOW, lowered at THIGH (R399). -/
def Mmu.demotion (m : Mmu) : Mmu :=
  { m with demote := (List.range 3).map (fun t =>
      if tierReg m.tfree t < tierReg m.tlow t then true
      else if tierReg m.thigh t ≤ tierReg m.tfree t then false else m.demote.getD t false) }

/-- Frames of 64 KiB of a tier: TCAP (R397, R398). -/
def State.tcap (s : State) (t : Nat) : Nat :=
  if t = 0 then s.sku.hbmGiB * 2 ^ 14 else if t = 1 then s.ddr * 2 ^ 14 else s.mmu.tier2

/-- A write in the launch unit's window (R353, R363). QCTL takes EN, whatever its reserved bits hold (DESIGN CHOICE, log entry 66). -/
def State.writeLaunch (s : State) (off : Nat) (v : DWord) : Out :=
  let q := off / 64
  let upd (f : Queue → Queue) : State := { s with lu := { s.lu with queues := s.lu.queues.modify q f } }
  if off = 0x1000 then
    if bits v.toNat 63 34 ≠ 0 then .next s
    else
      let id := v.extractLsb' 0 32
      match bits v.toNat 33 32 with
      | 0 => execGridQuery id s
      | 1 => execGridDrain id s
      | 2 => execGridResume id s
      | _ => execGridKill id s
  else if 64 ≤ q then .next s
  else
    match off % 64 with
    | 0x00 => .next (s.settle (upd (fun x => { x with en := v.getLsbD 0 })))
    | 0x08 => execQuantumWrite q v s
    | 0x10 => .next (upd (fun x => { x with deficit := v.toInt }))
    | 0x18 => execQstatClearOvf q v s
    | 0x20 => execQpush q v s
    | _ => .next s

/-- A write in the memory-management window (R395 to R399). DEDUCED, log entry 48. -/
def State.writeMmu (s : State) (off : Nat) (v : DWord) : Out :=
  let m := s.mmu
  let page := bits v.toNat 54 16
  let asid := bits v.toNat 13 0
  let op := bits v.toNat 15 14
  let t := (off - 0x100) / 32
  match off with
  | 0x00 => .next { s with mmu := { m with atbase := v } }
  | 0x08 => .next { s with mmu := { m with fqbase := v } }
  | 0x10 => .next { s with mmu := { m with fqhead := v } }
  | 0x20 => if op = 3 then .next s else .next (s.answer page asid op false)
  | 0x28 => if op = 3 then .next s else .next (s.shoot op page asid)
  | 0x40 => .next { s with mmu := { m with mqbase := v } }
  | 0x48 => .next { s with mmu := { m with mqtail := v } }
  | _ =>
    if off < 0x100 ∨ 3 ≤ t then .next s
    else
      match off % 32 with
      | 0x08 => .next { s with mmu := { m with tfree := m.tfree.set t v }.demotion }
      | 0x10 => .next { s with mmu := { m with tlow := m.tlow.set t v }.demotion }
      | 0x18 => .next { s with mmu := { m with thigh := m.thigh.set t v }.demotion }
      | _ => .next s

/-- A write in the error-control window (R444). -/
def State.writeErr (s : State) (off : Nat) (v : DWord) : Out :=
  match off with
  | 0x00 => .next { s with err := { s.err with eqbase := v } }
  | 0x08 => .next { s with err := { s.err with eqhead := v } }
  | 0x18 => .next (if v = 0 then { s with err := { s.err with eqcorr := 0 } } else s)
  | _ => .next s

/-- A write in the power control block (R456). -/
def State.writePower (s : State) (off : Nat) (v : DWord) : Out :=
  match off with
  | 0x00 => execPstateSet v s
  | 0x08 => execPstatClear v s
  | 0x10 => execPlimitWrite v s
  | _ => .next s

/-- REGISTER_WRITE: an aligned 8-byte write at an offset of the control space; one to a read-only or unlisted offset is ignored (R348,
R450). DEDUCED, log entry 56. -/
def execRegisterWrite (off : Nat) (v : DWord) (s : State) : Out :=
  if off % 8 ≠ 0 ∨ !s.up then .next s
  else if off < 0x10000 then s.writeLaunch off v
  else if off < 0x11000 then s.writeMmu (off - 0x10000) v
  else if 0x20000 ≤ off ∧ off < 0x21000 then s.writeErr (off - 0x20000) v
  else if 0x30000 ≤ off ∧ off < 0x31000 then s.writePower (off - 0x30000) v
  else if 0x1000000 ≤ off ∧ v = 0 then
    let u := (off - 0x1000000) / 4096
    .next (s.modCore (u / 96) (u % 96) (fun c => { c with perf := c.perf.set ((off - 0x1000000) % 4096 / 8) 0 }))
  else .next s

/-- PSTAT (R456). -/
def State.pstat (s : State) : Nat :=
  (s.dies.take s.sku.dies).zipIdx.foldl (fun n d => n + d.1.pstate * 2 ^ (2 * d.2)) 0
    + s.pwr.busy.toNat * 2 ^ 15 + s.pwr.drop.toNat * 2 ^ 16 + s.pwr.throt.toNat * 2 ^ 17

/-- What an aligned read of the launch unit's window returns (R353, R363). GRID of an empty queue's QSTAT reads 0 (DESIGN CHOICE, log entry
66). -/
def State.readLaunch (s : State) (off : Nat) : Nat :=
  let x := s.lu.queues.getD (off / 64) Queue.init
  if off = 0x1008 then s.gstat
  else if 64 ≤ off / 64 then 0
  else
    match off % 64 with
    | 0x00 => x.en.toNat
    | 0x08 => x.quantum
    | 0x10 => (BitVec.ofInt 64 x.deficit).toNat
    | 0x18 => x.fifo.length + x.ovf.toNat * 2 ^ 16
        + ((s.headOf (off / 64)).map (fun g => g.rcd.grid.toNat)).getD 0 * 2 ^ 32
    | _ => 0

/-- What an aligned read of the memory-management window returns (R397). -/
def State.readMmu (s : State) (off : Nat) : Nat :=
  let m := s.mmu
  let t := (off - 0x100) / 32
  match off with
  | 0x00 => m.atbase.toNat
  | 0x08 => m.fqbase.toNat
  | 0x10 => m.fqhead.toNat
  | 0x18 => m.fqtail.toNat
  | 0x30 => m.sdNow.isSome.toNat
  | 0x40 => m.mqbase.toNat
  | 0x48 => m.mqtail.toNat
  | 0x50 => m.mqhead.toNat
  | _ =>
    if off < 0x100 ∨ 3 ≤ t ∨ (t = 1 ∧ s.ddr = 0) then 0
    else
      match off % 32 with
      | 0x00 => s.tcap t
      | 0x08 => tierReg m.tfree t
      | 0x10 => tierReg m.tlow t
      | 0x18 => tierReg m.thigh t
      | _ => 0

/-- What an aligned read of the identity record returns (R453). -/
def State.readIdentity (s : State) (off : Nat) : Nat :=
  match off with
  | 0x00 => (match s.sku with | .k4 => 4 | .k2 => 2) + (s.sku.dies + 96 * s.sku.dies * 2 ^ 16) * 2 ^ 32
  | 0x08 => s.sku.hbmGiB * gib
  | 0x10 => s.ddr * gib
  | 0x18 => s.mgmt.serial.toNat
  | 0x20 => s.mgmt.svn + s.mgmt.dev * 2 ^ 32
  | _ => 0

/-- What an aligned 8-byte read of the control space returns; an unlisted offset reads as zero (R450). -/
def State.regRead (s : State) (off : Nat) : DWord :=
  let u := (off - 0x1000000) / 4096
  BitVec.ofNat 64 (
    if off % 8 ≠ 0 then 0
    else if off < 0x10000 then s.readLaunch off
    else if off < 0x11000 then s.readMmu (off - 0x10000)
    else if 0x20000 ≤ off ∧ off < 0x21000 then
      (match off - 0x20000 with
       | 0x00 => s.err.eqbase.toNat
       | 0x08 => s.err.eqhead.toNat
       | 0x10 => s.err.eqtail.toNat
       | 0x18 => s.err.eqcorr.toNat
       | _ => 0)
    else if 0x30000 ≤ off ∧ off < 0x31000 then
      (match off - 0x30000 with
       | 0x08 => s.pstat
       | 0x10 => s.pwr.plimit
       | 0x18 => s.pwr.temp
       | _ => 0)
    else if 0x40000 ≤ off ∧ off < 0x41000 then s.readIdentity (off - 0x40000)
    else if 0x1000000 ≤ off ∧ u < 96 * s.sku.dies then ((s.cores.getD u Core.init).perf.getD ((off - 0x1000000) % 4096 / 8) 0).toNat
    else 0)

end Sys2Proof.Machine
end

