-- ==== Sys2Proof/Machine/Sfu.lean ====
section
/-! DEFINITION. SFU: the exact function rounded once to f32 (R163, R164). rcp, rsq and sqrt are exact with a sticky bit. The
others are evaluated to `prec` fractional bits, far below the rounding step of any f32 result (DEDUCED, log entry 13). -/
namespace Sys2Proof.Machine

open Sys2Proof

/-! ## Fixed-point functions -/

/-- Fractional bits of a fixed-point value. -/
def prec : Nat := 288

/-- 1 in fixed point. -/
def fxOne : Int := ((2 ^ prec : Nat) : Int)

/-- Product in fixed point. -/
def fxMul (a b : Int) : Int := a * b / fxOne

/-- Quotient in fixed point. -/
def fxDiv (a b : Int) : Int := a * fxOne / b

/-- Floor of the square root, below 2^n. -/
def isqrt (x : Nat) : Nat → Nat → Nat
  | 0, r => r
  | n + 1, r => isqrt x n (if (r + 2 ^ n) * (r + 2 ^ n) ≤ x then r + 2 ^ n else r)

/-- Σ y^(2k+1) / (2k+1) with alternating or equal signs: `fuel` terms from `term` = ±y^(2k+1). -/
def oddSeries (alternate : Bool) (y2 : Int) : Nat → Nat → Int → Int → Int
  | 0, _, _, acc => acc
  | fuel + 1, k, term, acc =>
    let t := fxMul term y2
    oddSeries alternate y2 fuel (k + 1) (if alternate then -t else t) (acc + term / (2 * k + 1 : Nat))

/-- atanh y for |y| ≤ 1/3. -/
def fxAtanh (y : Int) : Int := oddSeries false (fxMul y y) 100 0 y 0

/-- atan (1/n), n ≥ 5. -/
def fxAtanInv (n : Nat) : Int := let y := fxOne / (n : Int); oddSeries true (fxMul y y) 70 0 y 0

/-- ln 2 = 2 atanh(1/3). -/
def fxLn2 : Int := 2 * fxAtanh (fxOne / 3)

/-- Σ t^n / n!: `fuel` terms from `term` = t^n / n!. -/
def expSeries (t : Int) : Nat → Nat → Int → Int → Int
  | 0, _, _, acc => acc
  | fuel + 1, n, term, acc => expSeries t fuel (n + 1) (fxMul term t / ((n + 1 : Nat) : Int)) (acc + term)

/-- e^t for 0 ≤ t < 1. -/
def fxExp (t : Int) : Int := expSeries t 70 0 fxOne 0

/-- Σ ± r^(n+2k) / (n+2k)!: `fuel` terms from `term`. -/
def trigSeries (r2 : Int) : Nat → Nat → Int → Int → Int
  | 0, _, _, acc => acc
  | fuel + 1, n, term, acc => trigSeries r2 fuel (n + 2) (-(fxMul term r2) / (((n + 1) * (n + 2) : Nat) : Int)) (acc + term)

/-- sin r for 0 ≤ r < 1.6. -/
def fxSin (r : Int) : Int := trigSeries (fxMul r r) 40 1 r 0

/-- cos r for 0 ≤ r < 1.6. -/
def fxCos (r : Int) : Int := trigSeries (fxMul r r) 40 0 fxOne 0

/-- π to `prec` bits, by Machin's formula; of these the reduction of an f32 argument uses up to 128 (R163: the argument is
reduced exactly). -/
def fxPi : Int := 16 * fxAtanInv 5 - 4 * fxAtanInv 239

/-- A fixed-point approximation of a value that no format holds, its low bit set so that it rounds as inexact. -/
def fxValue (v : Int) : Dy := ⟨decide (v < 0), 2 * v.natAbs + 1, -(prec : Int) - 1⟩

/-- The number in fixed point, rounded down in magnitude. -/
def Dy.fixed (x : Dy) : Int :=
  let n : Int := if 0 ≤ x.e + prec then ((x.m * 2 ^ (x.e + prec).toNat : Nat) : Int) else ((x.m / 2 ^ (-(x.e + prec)).toNat : Nat) : Int)
  if x.neg then -n else n

/-- A magnitude just below that of x: x (1 - ε) for an ε smaller than any rounding step. -/
def Dy.below (x : Dy) : Dy := ⟨x.neg, x.m * 2 ^ 60 - 1, x.e - 60⟩

/-- A magnitude just above that of x. -/
def Dy.above (x : Dy) : Dy := ⟨x.neg, x.m * 2 ^ 60 + 1, x.e - 60⟩

/-- The number 1 with a sign. -/
def Dy.one (neg : Bool) : Dy := ⟨neg, 1, 0⟩

/-! ## The functions on numbers that are not zero -/

/-- 1/x. -/
def rcpDy (x : Dy) : Dy :=
  let q := 2 ^ 64 / x.m
  ⟨x.neg, 2 * q + (if 2 ^ 64 % x.m = 0 then 0 else 1), -x.e - 65⟩

/-- √x of a positive number. -/
def sqrtDy (x : Dy) : Dy :=
  let y : Dy := if x.e % 2 = 0 then x else ⟨false, 2 * x.m, x.e - 1⟩
  let n := y.m * 2 ^ 80
  let r := isqrt n 60 0
  ⟨false, 2 * r + (if r * r = n then 0 else 1), y.e / 2 - 41⟩

/-- 1/√x of a positive number. -/
def rsqDy (x : Dy) : Dy :=
  let y : Dy := if x.e % 2 = 0 then x else ⟨false, 2 * x.m, x.e - 1⟩
  let n := 2 ^ 120 / y.m
  let r := isqrt n 64 0
  ⟨false, 2 * r + (if r * r * y.m = 2 ^ 120 then 0 else 1), -(y.e / 2) - 61⟩

/-- 2^(n + f) with f in fixed point, 0 ≤ f < 1. -/
def exp2Fixed (n : Int) (f : Int) : Dy :=
  let v := fxValue (fxExp (fxMul f fxLn2))
  { v with e := v.e + n }

/-- 2^x. -/
def exp2Dy (x : Dy) : Dy :=
  if 8 ≤ x.log2 then ⟨false, 1, if x.neg then -300 else 300⟩
  else if x.log2 < -60 then (if x.neg then (Dy.one false).below else (Dy.one false).above)
  else
    let v := x.fixed
    let n := v / fxOne
    let f := v % fxOne
    if f = 0 then ⟨false, 1, n⟩ else exp2Fixed n f

/-- log2 x of a positive number. -/
def log2Dy (x : Dy) : Dy :=
  let k := Nat.log2 x.m
  if x.m = 2 ^ k then Dy.ofInt (x.e + k) 0
  else
    -- a factor in [3/4, 3/2) times a power of two
    let h : Bool := decide (3 * 2 ^ k ≤ 2 * x.m)
    let n : Int := x.e + k + (if h then 1 else 0)
    let den : Nat := 2 ^ (if h then k + 1 else k)
    let y := ((x.m : Int) - den) * fxOne / ((x.m + den : Nat) : Int)
    fxValue (n * fxOne + fxDiv (2 * fxAtanh y) fxLn2)

/-- sin and cos of |x|: quotient by π/2 modulo 4, and the remainder in fixed point. -/
def reduceTrig (x : Dy) : Nat × Int :=
  let half := fxPi / 2
  let v := ({ x with neg := false } : Dy).fixed
  ((v / half % 4).toNat, v % half)

/-- sin |x| in fixed point by quadrant. -/
def quadSin (q : Nat) (r : Int) : Int :=
  match q % 4 with
  | 0 => fxSin r
  | 1 => fxCos r
  | 2 => -fxSin r
  | _ => -fxCos r

/-- sin x. -/
def sinDy (x : Dy) : Dy :=
  if x.log2 < -40 then x.below
  else
    let (q, r) := reduceTrig x
    let v := quadSin q r
    fxValue (if x.neg then -v else v)

/-- cos x. -/
def cosDy (x : Dy) : Dy :=
  if x.log2 < -40 then (Dy.one false).below
  else
    let (q, r) := reduceTrig x
    fxValue (quadSin (q + 1) r)

/-- tanh x. -/
def tanhDy (x : Dy) : Dy :=
  if x.log2 < -40 then x.below
  else if 5 ≤ x.log2 then (Dy.one x.neg).below
  else
    let u := fxDiv (2 * ({ x with neg := false } : Dy).fixed) fxLn2
    let E := fxExp (fxMul (u % fxOne) fxLn2) * ((2 ^ (u / fxOne).toNat : Nat) : Int)
    let v := fxDiv (E - fxOne) (E + fxOne)
    fxValue (if x.neg then -v else v)

/-! ## SFU (R163) -/

/-- The functions of SFU. -/
inductive SfuFn where
  | rcp | rsq | sqrt | exp2 | log2 | sin | cos | tanh
deriving DecidableEq, Repr

/-- Result of a function at an infinity (R163): none where it is invalid. -/
def sfuInf (f : SfuFn) (neg : Bool) : Option FV :=
  match f, neg with
  | .rcp, n => some (.num (.zero n))
  | .rsq, false => some (.num (.zero false))
  | .sqrt, false => some (.inf false)
  | .exp2, true => some (.num (.zero false))
  | .exp2, false => some (.inf false)
  | .log2, false => some (.inf false)
  | .tanh, n => some (.num (.one n))
  | _, _ => none

/-- Result and flags of a function at a zero (R163). -/
def sfuZero (f : SfuFn) (neg : Bool) : FV × FFlags :=
  match f with
  | .rcp | .rsq => (.inf neg, fDZ)
  | .sqrt | .sin | .tanh => (.num (.zero neg), 0)
  | .exp2 | .cos => (.num (.one false), 0)
  | .log2 => (.inf true, fDZ)

/-- The function at a number that is not zero: none where it is invalid. -/
def sfuNum (f : SfuFn) (x : Dy) : Option Dy :=
  match f with
  | .rcp => some (rcpDy x)
  | .rsq => if x.neg then none else some (rsqDy x)
  | .sqrt => if x.neg then none else some (sqrtDy x)
  | .exp2 => some (exp2Dy x)
  | .log2 => if x.neg then none else some (log2Dy x)
  | .sin => some (sinDy x)
  | .cos => some (cosDy x)
  | .tanh => some (tanhDy x)

/-- The SFU result of an input word (R163, R164). -/
def sfuValue (f : SfuFn) (daz ftz : Bool) (a : Nat) : Enc :=
  match f32.read daz a with
  | .nan sig => (f32.nanBits, if sig then fNV else 0)
  | .inf neg =>
    match sfuInf f neg with
    | some r => f32.result .rne ftz r
    | none => (f32.nanBits, fNV)
  | .num x =>
    if x.m = 0 then
      let z := sfuZero f x.neg
      ((f32.result .rne ftz z.1).1, z.2)
    else
      match sfuNum f x with
      | some r => f32.round .rne ftz r
      | none => (f32.nanBits, fNV)

/-- An SFU instruction (R145, R163): variable latency. -/
def sfuOp (b : Bool) (d a : VReg) (f : SfuFn) (s : State) : Out :=
  issue { b := b, u := { regs := useDA d a, fl := true, var := true }, cyc := (1, 2, 4) } (fun x s w =>
    Eff.perLane x s w (fun _ l =>
      let r := sfuValue f (wmDaz w.wmode) (wmFtz w.wmode) (l.v w.alloc a).toNat
      flagged w.wmode l (l.setV w.alloc d (BitVec.ofNat 32 r.1)) r.2)) s

/-- RCP. -/
def execRcp (d a : VReg) (b : Bool) (s : State) : Out := sfuOp b d a .rcp s
/-- RSQ. -/
def execRsq (d a : VReg) (b : Bool) (s : State) : Out := sfuOp b d a .rsq s
/-- SQRT. -/
def execSqrt (d a : VReg) (b : Bool) (s : State) : Out := sfuOp b d a .sqrt s
/-- EXP2. -/
def execExp2 (d a : VReg) (b : Bool) (s : State) : Out := sfuOp b d a .exp2 s
/-- LOG2. -/
def execLog2 (d a : VReg) (b : Bool) (s : State) : Out := sfuOp b d a .log2 s
/-- SIN. -/
def execSin (d a : VReg) (b : Bool) (s : State) : Out := sfuOp b d a .sin s
/-- COS. -/
def execCos (d a : VReg) (b : Bool) (s : State) : Out := sfuOp b d a .cos s
/-- TANH. -/
def execTanh (d a : VReg) (b : Bool) (s : State) : Out := sfuOp b d a .tanh s

end Sys2Proof.Machine
end

