-- ==== Sys2Proof/Machine/Dispatch.lean ====
section
/-! DEFINITION. One arm per constructor of Instr: the direct call of its meaning. -/
namespace Sys2Proof.Machine

open Sys2Proof

def exec (i : Instr) (s : State) : Host.Outcome State Fault Refusal :=
  match i with
  | .add d a c b => Sys2Proof.Machine.execAdd d a c b s
  | .sub d a c b => Sys2Proof.Machine.execSub d a c b s
  | .mul d a c b => Sys2Proof.Machine.execMul d a c b s
  | .mulhiI32 d a c b => Sys2Proof.Machine.execMulhiI32 d a c b s
  | .mulhiN32 d a c b => Sys2Proof.Machine.execMulhiN32 d a c b s
  | .abs d a b => Sys2Proof.Machine.execAbs d a b s
  | .neg d a b => Sys2Proof.Machine.execNeg d a b s
  | .minI32 d a c b => Sys2Proof.Machine.execMinI32 d a c b s
  | .maxI32 d a c b => Sys2Proof.Machine.execMaxI32 d a c b s
  | .minN32 d a c b => Sys2Proof.Machine.execMinN32 d a c b s
  | .maxN32 d a c b => Sys2Proof.Machine.execMaxN32 d a c b s
  | .and d a c b => Sys2Proof.Machine.execAnd d a c b s
  | .or d a c b => Sys2Proof.Machine.execOr d a c b s
  | .xor d a c b => Sys2Proof.Machine.execXor d a c b s
  | .andn d a c b => Sys2Proof.Machine.execAndn d a c b s
  | .not d a b => Sys2Proof.Machine.execNot d a b s
  | .popc d a b => Sys2Proof.Machine.execPopc d a b s
  | .clz d a b => Sys2Proof.Machine.execClz d a b s
  | .brev d a b => Sys2Proof.Machine.execBrev d a b s
  | .shl d a c b => Sys2Proof.Machine.execShl d a c b s
  | .shr d a c b => Sys2Proof.Machine.execShr d a c b s
  | .sra d a c b => Sys2Proof.Machine.execSra d a c b s
  | .rotl d a c b => Sys2Proof.Machine.execRotl d a c b s
  | .rotr d a c b => Sys2Proof.Machine.execRotr d a c b s
  | .add64 d a c b => Sys2Proof.Machine.execAdd64 d a c b s
  | .sub64 d a c b => Sys2Proof.Machine.execSub64 d a c b s
  | .mul64 d a c b => Sys2Proof.Machine.execMul64 d a c b s
  | .minI64 d a c b => Sys2Proof.Machine.execMinI64 d a c b s
  | .maxI64 d a c b => Sys2Proof.Machine.execMaxI64 d a c b s
  | .minN64 d a c b => Sys2Proof.Machine.execMinN64 d a c b s
  | .maxN64 d a c b => Sys2Proof.Machine.execMaxN64 d a c b s
  | .neg64 d a b => Sys2Proof.Machine.execNeg64 d a b s
  | .addc d a c b => Sys2Proof.Machine.execAddc d a c b s
  | .subb d a c b => Sys2Proof.Machine.execSubb d a c b s
  | .madI32 d a c b => Sys2Proof.Machine.execMadI32 d a c b s
  | .madI64 d a c b => Sys2Proof.Machine.execMadI64 d a c b s
  | .cmpEq d a c b => Sys2Proof.Machine.execCmpEq d a c b s
  | .cmpNe d a c b => Sys2Proof.Machine.execCmpNe d a c b s
  | .cmpLtI d a c b => Sys2Proof.Machine.execCmpLtI d a c b s
  | .cmpLeI d a c b => Sys2Proof.Machine.execCmpLeI d a c b s
  | .cmpLtN d a c b => Sys2Proof.Machine.execCmpLtN d a c b s
  | .cmpLeN d a c b => Sys2Proof.Machine.execCmpLeN d a c b s
  | .cmpTst d a c b => Sys2Proof.Machine.execCmpTst d a c b s
  | .cmp64Eq d a c b => Sys2Proof.Machine.execCmp64Eq d a c b s
  | .cmp64Ne d a c b => Sys2Proof.Machine.execCmp64Ne d a c b s
  | .cmp64LtI d a c b => Sys2Proof.Machine.execCmp64LtI d a c b s
  | .cmp64LeI d a c b => Sys2Proof.Machine.execCmp64LeI d a c b s
  | .cmp64LtN d a c b => Sys2Proof.Machine.execCmp64LtN d a c b s
  | .cmp64LeN d a c b => Sys2Proof.Machine.execCmp64LeN d a c b s
  | .cmp64Tst d a c b => Sys2Proof.Machine.execCmp64Tst d a c b s
  | .bfeN d a c b => Sys2Proof.Machine.execBfeN d a c b s
  | .bfeI d a c b => Sys2Proof.Machine.execBfeI d a c b s
  | .bfi d a c b => Sys2Proof.Machine.execBfi d a c b s
  | .fshl d a c b => Sys2Proof.Machine.execFshl d a c b s
  | .fshr d a c b => Sys2Proof.Machine.execFshr d a c b s
  | .prmt d a c b => Sys2Proof.Machine.execPrmt d a c b s
  | .sel p d a c b => Sys2Proof.Machine.execSel p d a c b s
  | .addi d a imm b => Sys2Proof.Machine.execAddi d a imm b s
  | .andi d a imm b => Sys2Proof.Machine.execAndi d a imm b s
  | .ori d a imm b => Sys2Proof.Machine.execOri d a imm b s
  | .xori d a imm b => Sys2Proof.Machine.execXori d a imm b s
  | .shli d a n b => Sys2Proof.Machine.execShli d a n b s
  | .shri d a n b => Sys2Proof.Machine.execShri d a n b s
  | .srai d a n b => Sys2Proof.Machine.execSrai d a n b s
  | .rotli d a n b => Sys2Proof.Machine.execRotli d a n b s
  | .li d imm b => Sys2Proof.Machine.execLi d imm b s
  | .lih d imm b => Sys2Proof.Machine.execLih d imm b s
  | .lea d a c sh b => Sys2Proof.Machine.execLea d a c sh b s
  | .leai d a imm b => Sys2Proof.Machine.execLeai d a imm b s
  | .xset d a imm b => Sys2Proof.Machine.execXset d a imm b s
  | .xget d a b => Sys2Proof.Machine.execXget d a b s
  | .sadd d a c b => Sys2Proof.Machine.execSadd d a c b s
  | .ssub d a c b => Sys2Proof.Machine.execSsub d a c b s
  | .smul d a c b => Sys2Proof.Machine.execSmul d a c b s
  | .sand d a c b => Sys2Proof.Machine.execSand d a c b s
  | .sor d a c b => Sys2Proof.Machine.execSor d a c b s
  | .sxor d a c b => Sys2Proof.Machine.execSxor d a c b s
  | .sshl d a c b => Sys2Proof.Machine.execSshl d a c b s
  | .sshr d a c b => Sys2Proof.Machine.execSshr d a c b s
  | .saddi d a imm b => Sys2Proof.Machine.execSaddi d a imm b s
  | .sli d imm b => Sys2Proof.Machine.execSli d imm b s
  | .v2s d a b => Sys2Proof.Machine.execV2s d a b s
  | .s2v d a b => Sys2Proof.Machine.execS2v d a b s
  | .smov d a b => Sys2Proof.Machine.execSmov d a b s
  | .scmpEq d a c b => Sys2Proof.Machine.execScmpEq d a c b s
  | .scmpLtI d a c b => Sys2Proof.Machine.execScmpLtI d a c b s
  | .scmpLtN d a c b => Sys2Proof.Machine.execScmpLtN d a c b s
  | .scmpNe d a c b => Sys2Proof.Machine.execScmpNe d a c b s
  | .fadd d a c b => Sys2Proof.Machine.execFadd d a c b s
  | .fsub d a c b => Sys2Proof.Machine.execFsub d a c b s
  | .fmul d a c b => Sys2Proof.Machine.execFmul d a c b s
  | .fmin d a c b => Sys2Proof.Machine.execFmin d a c b s
  | .fmax d a c b => Sys2Proof.Machine.execFmax d a c b s
  | .fabs d a b => Sys2Proof.Machine.execFabs d a b s
  | .fneg d a b => Sys2Proof.Machine.execFneg d a b s
  | .fclass d a b => Sys2Proof.Machine.execFclass d a b s
  | .ffma d a c b => Sys2Proof.Machine.execFfma d a c b s
  | .ffms d a c b => Sys2Proof.Machine.execFfms d a c b s
  | .fnma d a c b => Sys2Proof.Machine.execFnma d a c b s
  | .fnms d a c b => Sys2Proof.Machine.execFnms d a c b s
  | .faddF16 d a c b => Sys2Proof.Machine.execFaddF16 d a c b s
  | .fsubF16 d a c b => Sys2Proof.Machine.execFsubF16 d a c b s
  | .fmulF16 d a c b => Sys2Proof.Machine.execFmulF16 d a c b s
  | .fminF16 d a c b => Sys2Proof.Machine.execFminF16 d a c b s
  | .fmaxF16 d a c b => Sys2Proof.Machine.execFmaxF16 d a c b s
  | .fabsF16 d a b => Sys2Proof.Machine.execFabsF16 d a b s
  | .fnegF16 d a b => Sys2Proof.Machine.execFnegF16 d a b s
  | .fclassF16 d a b => Sys2Proof.Machine.execFclassF16 d a b s
  | .faddBf16 d a c b => Sys2Proof.Machine.execFaddBf16 d a c b s
  | .fsubBf16 d a c b => Sys2Proof.Machine.execFsubBf16 d a c b s
  | .fmulBf16 d a c b => Sys2Proof.Machine.execFmulBf16 d a c b s
  | .fminBf16 d a c b => Sys2Proof.Machine.execFminBf16 d a c b s
  | .fmaxBf16 d a c b => Sys2Proof.Machine.execFmaxBf16 d a c b s
  | .fabsBf16 d a b => Sys2Proof.Machine.execFabsBf16 d a b s
  | .fnegBf16 d a b => Sys2Proof.Machine.execFnegBf16 d a b s
  | .fclassBf16 d a b => Sys2Proof.Machine.execFclassBf16 d a b s
  | .faddF64 d a c b => Sys2Proof.Machine.execFaddF64 d a c b s
  | .fsubF64 d a c b => Sys2Proof.Machine.execFsubF64 d a c b s
  | .fmulF64 d a c b => Sys2Proof.Machine.execFmulF64 d a c b s
  | .fminF64 d a c b => Sys2Proof.Machine.execFminF64 d a c b s
  | .fmaxF64 d a c b => Sys2Proof.Machine.execFmaxF64 d a c b s
  | .ffmaF64 d a c b => Sys2Proof.Machine.execFfmaF64 d a c b s
  | .fabsF64 d a b => Sys2Proof.Machine.execFabsF64 d a b s
  | .fnegF64 d a b => Sys2Proof.Machine.execFnegF64 d a b s
  | .fcmpEq d a c b => Sys2Proof.Machine.execFcmpEq d a c b s
  | .fcmpLt d a c b => Sys2Proof.Machine.execFcmpLt d a c b s
  | .fcmpLe d a c b => Sys2Proof.Machine.execFcmpLe d a c b s
  | .fcmpUn d a c b => Sys2Proof.Machine.execFcmpUn d a c b s
  | .fcmpEqF64 d a c b => Sys2Proof.Machine.execFcmpEqF64 d a c b s
  | .fcmpLtF64 d a c b => Sys2Proof.Machine.execFcmpLtF64 d a c b s
  | .fcmpLeF64 d a c b => Sys2Proof.Machine.execFcmpLeF64 d a c b s
  | .fcmpUnF64 d a c b => Sys2Proof.Machine.execFcmpUnF64 d a c b s
  | .cvt rnd d a cv b => Sys2Proof.Machine.execCvt rnd d a cv b s
  | .frnd d a rnd b => Sys2Proof.Machine.execFrnd d a rnd b s
  | .fscl d a c b => Sys2Proof.Machine.execFscl d a c b s
  | .fpk16 d a c b => Sys2Proof.Machine.execFpk16 d a c b s
  | .fpkbf d a c b => Sys2Proof.Machine.execFpkbf d a c b s
  | .fupk16 d a b => Sys2Proof.Machine.execFupk16 d a b s
  | .fupkbf d a b => Sys2Proof.Machine.execFupkbf d a b s
  | .dot4I8 d a c b => Sys2Proof.Machine.execDot4I8 d a c b s
  | .dot4N8 d a c b => Sys2Proof.Machine.execDot4N8 d a c b s
  | .dot8I4 d a c b => Sys2Proof.Machine.execDot8I4 d a c b s
  | .dot8N4 d a c b => Sys2Proof.Machine.execDot8N4 d a c b s
  | .fdot4E4m3 d a c b => Sys2Proof.Machine.execFdot4E4m3 d a c b s
  | .fdot4E5m2 d a c b => Sys2Proof.Machine.execFdot4E5m2 d a c b s
  | .fdot8E2m1 d a c b => Sys2Proof.Machine.execFdot8E2m1 d a c b s
  | .fdot2Bf16 d a c b => Sys2Proof.Machine.execFdot2Bf16 d a c b s
  | .rcp d a b => Sys2Proof.Machine.execRcp d a b s
  | .rsq d a b => Sys2Proof.Machine.execRsq d a b s
  | .sqrt d a b => Sys2Proof.Machine.execSqrt d a b s
  | .exp2 d a b => Sys2Proof.Machine.execExp2 d a b s
  | .log2 d a b => Sys2Proof.Machine.execLog2 d a b s
  | .sin d a b => Sys2Proof.Machine.execSin d a b s
  | .cos d a b => Sys2Proof.Machine.execCos d a b s
  | .tanh d a b => Sys2Proof.Machine.execTanh d a b s
  | .rngQ0 d a c b => Sys2Proof.Machine.execRngQ0 d a c b s
  | .rngQ1 d a c b => Sys2Proof.Machine.execRngQ1 d a c b s
  | .rngQ2 d a c b => Sys2Proof.Machine.execRngQ2 d a c b s
  | .rngQ3 d a c b => Sys2Proof.Machine.execRngQ3 d a c b s
  | .rngf d a c b => Sys2Proof.Machine.execRngf d a c b s
  | .shflIdx d a c b => Sys2Proof.Machine.execShflIdx d a c b s
  | .shflUp d a c b => Sys2Proof.Machine.execShflUp d a c b s
  | .shflDown d a c b => Sys2Proof.Machine.execShflDown d a c b s
  | .shflXor d a c b => Sys2Proof.Machine.execShflXor d a c b s
  | .voteAny d a b => Sys2Proof.Machine.execVoteAny d a b s
  | .voteAll d a b => Sys2Proof.Machine.execVoteAll d a b s
  | .voteEq d a b => Sys2Proof.Machine.execVoteEq d a b s
  | .voteBallot d a b => Sys2Proof.Machine.execVoteBallot d a b s
  | .voteMatch d a b => Sys2Proof.Machine.execVoteMatch d a b s
  | .voteActive d b => Sys2Proof.Machine.execVoteActive d b s
  | .voteElect d b => Sys2Proof.Machine.execVoteElect d b s
  | .br off pn pg pr u b => Sys2Proof.Machine.execBr off pn pg pr u b s
  | .call off pn pg pr u b => Sys2Proof.Machine.execCall off pn pg pr u b s
  | .jmpi a b => Sys2Proof.Machine.execJmpi a b s
  | .calli a b => Sys2Proof.Machine.execCalli a b s
  | .ret b => Sys2Proof.Machine.execRet b s
  | .prio n b => Sys2Proof.Machine.execPrio n b s
  | .exit b => Sys2Proof.Machine.execExit b s
  | .nop b => Sys2Proof.Machine.execNop b s
  | .spawn e d a c b => Sys2Proof.Machine.execSpawn e d a c b s
  | .joinw a b => Sys2Proof.Machine.execJoinw a b s
  | .joint d a b => Sys2Proof.Machine.execJoint d a b s
  | .waitw a c b => Sys2Proof.Machine.execWaitw a c b s
  | .launch d a b => Sys2Proof.Machine.execLaunch d a b s
  | .ldgB8N d a off b => Sys2Proof.Machine.execLdgB8N d a off b s
  | .ldgB8I d a off b => Sys2Proof.Machine.execLdgB8I d a off b s
  | .ldgB16N d a off b => Sys2Proof.Machine.execLdgB16N d a off b s
  | .ldgB16I d a off b => Sys2Proof.Machine.execLdgB16I d a off b s
  | .ldgB32 d a off b => Sys2Proof.Machine.execLdgB32 d a off b s
  | .ldgB64 d a off b => Sys2Proof.Machine.execLdgB64 d a off b s
  | .ldgB128 d a off b => Sys2Proof.Machine.execLdgB128 d a off b s
  | .stgB8 d a off b => Sys2Proof.Machine.execStgB8 d a off b s
  | .stgB16 d a off b => Sys2Proof.Machine.execStgB16 d a off b s
  | .stgB32 d a off b => Sys2Proof.Machine.execStgB32 d a off b s
  | .stgB64 d a off b => Sys2Proof.Machine.execStgB64 d a off b s
  | .stgB128 d a off b => Sys2Proof.Machine.execStgB128 d a off b s
  | .stgpB8 d a off b => Sys2Proof.Machine.execStgpB8 d a off b s
  | .stgpB16 d a off b => Sys2Proof.Machine.execStgpB16 d a off b s
  | .stgpB32 d a off b => Sys2Proof.Machine.execStgpB32 d a off b s
  | .stgpB64 d a off b => Sys2Proof.Machine.execStgpB64 d a off b s
  | .stgpB128 d a off b => Sys2Proof.Machine.execStgpB128 d a off b s
  | .ldaB8N d a off b => Sys2Proof.Machine.execLdaB8N d a off b s
  | .ldaB8I d a off b => Sys2Proof.Machine.execLdaB8I d a off b s
  | .ldaB16N d a off b => Sys2Proof.Machine.execLdaB16N d a off b s
  | .ldaB16I d a off b => Sys2Proof.Machine.execLdaB16I d a off b s
  | .ldaB32 d a off b => Sys2Proof.Machine.execLdaB32 d a off b s
  | .ldaB64 d a off b => Sys2Proof.Machine.execLdaB64 d a off b s
  | .ldaB128 d a off b => Sys2Proof.Machine.execLdaB128 d a off b s
  | .staB8 d a off b => Sys2Proof.Machine.execStaB8 d a off b s
  | .staB16 d a off b => Sys2Proof.Machine.execStaB16 d a off b s
  | .staB32 d a off b => Sys2Proof.Machine.execStaB32 d a off b s
  | .staB64 d a off b => Sys2Proof.Machine.execStaB64 d a off b s
  | .staB128 d a off b => Sys2Proof.Machine.execStaB128 d a off b s
  | .ldpB32 d a off b => Sys2Proof.Machine.execLdpB32 d a off b s
  | .ldpB64 d a off b => Sys2Proof.Machine.execLdpB64 d a off b s
  | .ldpB128 d a off b => Sys2Proof.Machine.execLdpB128 d a off b s
  | .stpB32 d a off b => Sys2Proof.Machine.execStpB32 d a off b s
  | .stpB64 d a off b => Sys2Proof.Machine.execStpB64 d a off b s
  | .stpB128 d a off b => Sys2Proof.Machine.execStpB128 d a off b s
  | .pfgL1 a off b => Sys2Proof.Machine.execPfgL1 a off b s
  | .pfgL2 a off b => Sys2Proof.Machine.execPfgL2 a off b s
  | .ldc d a off b => Sys2Proof.Machine.execLdc d a off b s
  | .atomAdd d a c b => Sys2Proof.Machine.execAtomAdd d a c b s
  | .atomMinI d a c b => Sys2Proof.Machine.execAtomMinI d a c b s
  | .atomMaxI d a c b => Sys2Proof.Machine.execAtomMaxI d a c b s
  | .atomAnd d a c b => Sys2Proof.Machine.execAtomAnd d a c b s
  | .atomOr d a c b => Sys2Proof.Machine.execAtomOr d a c b s
  | .atomXor d a c b => Sys2Proof.Machine.execAtomXor d a c b s
  | .atomXchg d a c b => Sys2Proof.Machine.execAtomXchg d a c b s
  | .atomFaddF32 d a c b => Sys2Proof.Machine.execAtomFaddF32 d a c b s
  | .atomAddI64 d a c b => Sys2Proof.Machine.execAtomAddI64 d a c b s
  | .atomMinI64 d a c b => Sys2Proof.Machine.execAtomMinI64 d a c b s
  | .atomMaxI64 d a c b => Sys2Proof.Machine.execAtomMaxI64 d a c b s
  | .atomMinN64 d a c b => Sys2Proof.Machine.execAtomMinN64 d a c b s
  | .atomMaxN64 d a c b => Sys2Proof.Machine.execAtomMaxN64 d a c b s
  | .atomXchg64 d a c b => Sys2Proof.Machine.execAtomXchg64 d a c b s
  | .atomAddI128 d a c b => Sys2Proof.Machine.execAtomAddI128 d a c b s
  | .atomFaddF64 d a c b => Sys2Proof.Machine.execAtomFaddF64 d a c b s
  | .cas32 d a c b => Sys2Proof.Machine.execCas32 d a c b s
  | .cas64 d a c b => Sys2Proof.Machine.execCas64 d a c b s
  | .cas128 d a c b => Sys2Proof.Machine.execCas128 d a c b s
  | .bar b => Sys2Proof.Machine.execBar b s
  | .barm a b => Sys2Proof.Machine.execBarm a b s
  | .barrAddI64 d a b => Sys2Proof.Machine.execBarrAddI64 d a b s
  | .barrAddF32 d a b => Sys2Proof.Machine.execBarrAddF32 d a b s
  | .barrAddF64 d a b => Sys2Proof.Machine.execBarrAddF64 d a b s
  | .barrMinF32 d a b => Sys2Proof.Machine.execBarrMinF32 d a b s
  | .barrMaxF32 d a b => Sys2Proof.Machine.execBarrMaxF32 d a b s
  | .barrMinI64 d a b => Sys2Proof.Machine.execBarrMinI64 d a b s
  | .barrMaxI64 d a b => Sys2Proof.Machine.execBarrMaxI64 d a b s
  | .barrOrB32 d a b => Sys2Proof.Machine.execBarrOrB32 d a b s
  | .fenceC b => Sys2Proof.Machine.execFenceC b s
  | .fenceT b => Sys2Proof.Machine.execFenceT b s
  | .fenceD b => Sys2Proof.Machine.execFenceD b s
  | .fenceK b => Sys2Proof.Machine.execFenceK b s
  | .fenceX b => Sys2Proof.Machine.execFenceX b s
  | .txb b => Sys2Proof.Machine.execTxb b s
  | .txe b => Sys2Proof.Machine.execTxe b s
  | .txa a b => Sys2Proof.Machine.execTxa a b s
  | .txs d b => Sys2Proof.Machine.execTxs d b s
  | .bcpG2a a t b => Sys2Proof.Machine.execBcpG2a a t b s
  | .bcpG2ax a t b => Sys2Proof.Machine.execBcpG2ax a t b s
  | .bcpG2rx a t b => Sys2Proof.Machine.execBcpG2rx a t b s
  | .bcpA2g a t b => Sys2Proof.Machine.execBcpA2g a t b s
  | .bcpQ2g a t b => Sys2Proof.Machine.execBcpQ2g a t b s
  | .bcpG2g a t b => Sys2Proof.Machine.execBcpG2g a t b s
  | .bcpRem a t b => Sys2Proof.Machine.execBcpRem a t b s
  | .bcpScld a t b => Sys2Proof.Machine.execBcpScld a t b s
  | .twait a b => Sys2Proof.Machine.execTwait a b s
  | .twany a b => Sys2Proof.Machine.execTwany a b s
  | .tfirst d a b => Sys2Proof.Machine.execTfirst d a b s
  | .tclr a b => Sys2Proof.Machine.execTclr a b s
  | .tstat d t b => Sys2Proof.Machine.execTstat d t b s
  | .mmodeC b => Sys2Proof.Machine.execMmodeC b s
  | .mmodeS b => Sys2Proof.Machine.execMmodeS b s
  | .mcal b => Sys2Proof.Machine.execMcal b s
  | .mmulEx acc a c b => Sys2Proof.Machine.execMmulEx acc a c b s
  | .mmulAp1 acc a c b => Sys2Proof.Machine.execMmulAp1 acc a c b s
  | .mmulAp2 acc a c b => Sys2Proof.Machine.execMmulAp2 acc a c b s
  | .mmulAp4 acc a c b => Sys2Proof.Machine.execMmulAp4 acc a c b s
  | .mzero a b => Sys2Proof.Machine.execMzero a b s
  | .mrd d a b => Sys2Proof.Machine.execMrd d a b s
  | .mwr d a b => Sys2Proof.Machine.execMwr d a b s
  | .mdrain a t b => Sys2Proof.Machine.execMdrain a t b s
  | .mdrainAddF32 a t b => Sys2Proof.Machine.execMdrainAddF32 a t b s
  | .mdrainAddI32 a t b => Sys2Proof.Machine.execMdrainAddI32 a t b s
  | .mdrainAddI64 a t b => Sys2Proof.Machine.execMdrainAddI64 a t b s
  | .trap n b => Sys2Proof.Machine.execTrap n b s
  | .brk n b => Sys2Proof.Machine.execBrk n b s
  | .eret b => Sys2Proof.Machine.execEret b s
  | .srd d sr b => Sys2Proof.Machine.execSrd d sr b s
  | .swr dst b => Sys2Proof.Machine.execSwr dst b s
  | .srds d sr b => Sys2Proof.Machine.execSrds d sr b s
  | .mov16 d c b => Sys2Proof.Machine.execMov16 d c b s
  | .add16 d c b => Sys2Proof.Machine.execAdd16 d c b s
  | .sub16 d c b => Sys2Proof.Machine.execSub16 d c b s
  | .and16 d c b => Sys2Proof.Machine.execAnd16 d c b s
  | .or16 d c b => Sys2Proof.Machine.execOr16 d c b s
  | .xor16 d c b => Sys2Proof.Machine.execXor16 d c b s
  | .shl16 d c b => Sys2Proof.Machine.execShl16 d c b s
  | .shr16 d c b => Sys2Proof.Machine.execShr16 d c b s
  | .addi16 d imm b => Sys2Proof.Machine.execAddi16 d imm b s
  | .mul16 d c b => Sys2Proof.Machine.execMul16 d c b s
  | .fadd16 d c b => Sys2Proof.Machine.execFadd16 d c b s
  | .fsub16 d c b => Sys2Proof.Machine.execFsub16 d c b s
  | .fmul16 d c b => Sys2Proof.Machine.execFmul16 d c b s
  | .fmax16 d c b => Sys2Proof.Machine.execFmax16 d c b s
  | .fmin16 d c b => Sys2Proof.Machine.execFmin16 d c b s
  | .slotPick die core slot => Sys2Proof.Machine.execSlotPick die core slot s
  | .runLimit w => Sys2Proof.Machine.execRunLimit w s
  | .resultReturn w r => Sys2Proof.Machine.execResultReturn w r s
  | .trapDelivery w => Sys2Proof.Machine.execTrapDelivery w s
  | .joinwWake w => Sys2Proof.Machine.execJoinwWake w s
  | .waitwWake w => Sys2Proof.Machine.execWaitwWake w s
  | .warpCommit w => Sys2Proof.Machine.execWarpCommit w s
  | .rollback w => Sys2Proof.Machine.execRollback w s
  | .cautiousModeEnd w => Sys2Proof.Machine.execCautiousModeEnd w s
  | .postedStorePublish p sc => Sys2Proof.Machine.execPostedStorePublish p sc s
  | .forcedPublish line a => Sys2Proof.Machine.execForcedPublish line a s
  | .serialPermitGrant => Sys2Proof.Machine.execSerialPermitGrant s
  | .copyComplete c => Sys2Proof.Machine.execCopyComplete c s
  | .mmulStart die core => Sys2Proof.Machine.execMmulStart die core s
  | .arrayStep die core fails => Sys2Proof.Machine.execArrayStep die core fails s
  | .mmulComplete die core => Sys2Proof.Machine.execMmulComplete die core s
  | .mmodeCModePoint gk team => Sys2Proof.Machine.execMmodeCModePoint gk team s
  | .mmodeCUnpark gk team => Sys2Proof.Machine.execMmodeCUnpark gk team s
  | .mmodeSVerify gk team => Sys2Proof.Machine.execMmodeSVerify gk team s
  | .mcalComplete gk team bad => Sys2Proof.Machine.execMcalComplete gk team bad s
  | .qpush q pa => Sys2Proof.Machine.execQpush q pa s
  | .quantumWrite q v => Sys2Proof.Machine.execQuantumWrite q v s
  | .qstatClearOvf q v => Sys2Proof.Machine.execQstatClearOvf q v s
  | .registerWrite off v => Sys2Proof.Machine.execRegisterWrite off v s
  | .gridQuery id => Sys2Proof.Machine.execGridQuery id s
  | .gridDrain id => Sys2Proof.Machine.execGridDrain id s
  | .gridResume id => Sys2Proof.Machine.execGridResume id s
  | .gridKill id => Sys2Proof.Machine.execGridKill id s
  | .warpKillStop w => Sys2Proof.Machine.execWarpKillStop w s
  | .admission q => Sys2Proof.Machine.execAdmission q s
  | .waitWordNotify gk => Sys2Proof.Machine.execWaitWordNotify gk s
  | .teamSelect => Sys2Proof.Machine.execTeamSelect s
  | .teamPlacement die => Sys2Proof.Machine.execTeamPlacement die s
  | .twinBackoffExpiry die => Sys2Proof.Machine.execTwinBackoffExpiry die s
  | .teamRetire gk team => Sys2Proof.Machine.execTeamRetire gk team s
  | .doneWordAdd gk => Sys2Proof.Machine.execDoneWordAdd gk s
  | .partialWarpTimeout die core p => Sys2Proof.Machine.execPartialWarpTimeout die core p s
  | .joinwDueDelay die core p => Sys2Proof.Machine.execJoinwDueDelay die core p s
  | .cooperRelease die core => Sys2Proof.Machine.execCooperRelease die core s
  | .ringSpill die core => Sys2Proof.Machine.execRingSpill die core s
  | .ringRefill die core gk => Sys2Proof.Machine.execRingRefill die core gk s
  | .warpYield die core => Sys2Proof.Machine.execWarpYield die core s
  | .warpRestore w => Sys2Proof.Machine.execWarpRestore w s
  | .pageWalk die core asid page acc => Sys2Proof.Machine.execPageWalk die core asid page acc s
  | .faultRecordEnter => Sys2Proof.Machine.execFaultRecordEnter s
  | .fresResolved page asid => Sys2Proof.Machine.execFresResolved page asid s
  | .fresUnresolvable page asid => Sys2Proof.Machine.execFresUnresolvable page asid s
  | .fresBackingFailed page asid => Sys2Proof.Machine.execFresBackingFailed page asid s
  | .shootdownPage page asid => Sys2Proof.Machine.execShootdownPage page asid s
  | .shootdownAsid asid => Sys2Proof.Machine.execShootdownAsid asid s
  | .shootdownAll => Sys2Proof.Machine.execShootdownAll s
  | .shootdownComplete => Sys2Proof.Machine.execShootdownComplete s
  | .migrationCommandTake => Sys2Proof.Machine.execMigrationCommandTake s
  | .migrationComplete m ok => Sys2Proof.Machine.execMigrationComplete m ok s
  | .rds h line => Sys2Proof.Machine.execRds h line s
  | .wrp src => Sys2Proof.Machine.execWrp src s
  | .atm h k pa x y => Sys2Proof.Machine.execAtm h k pa x y s
  | .own c line => Sys2Proof.Machine.execOwn c line s
  | .wrf c line => Sys2Proof.Machine.execWrf c line s
  | .addl c line => Sys2Proof.Machine.execAddl c line s
  | .txlk w lane line => Sys2Proof.Machine.execTxlk w lane line s
  | .txwr w lane line => Sys2Proof.Machine.execTxwr w lane line s
  | .wbd h line half => Sys2Proof.Machine.execWbd h line half s
  | .eve h line => Sys2Proof.Machine.execEve h line s
  | .ownh line half => Sys2Proof.Machine.execOwnh line half s
  | .snpinv h line => Sys2Proof.Machine.execSnpinv h line s
  | .snpinvd h line => Sys2Proof.Machine.execSnpinvd h line s
  | .snpfwd h line g => Sys2Proof.Machine.execSnpfwd h line g s
  | .snppass h line => Sys2Proof.Machine.execSnppass h line s
  | .recall line => Sys2Proof.Machine.execRecall line s
  | .cmp w => Sys2Proof.Machine.execCmp w s
  | .ack h line => Sys2Proof.Machine.execAck h line s
  | .cmpack h line => Sys2Proof.Machine.execCmpack h line s
  | .retry h line => Sys2Proof.Machine.execRetry h line s
  | .rtygnt die slice => Sys2Proof.Machine.execRtygnt die slice s
  | .data h line poison => Sys2Proof.Machine.execData h line poison s
  | .linkReplay x y => Sys2Proof.Machine.execLinkReplay x y s
  | .linkRetrain x y ok => Sys2Proof.Machine.execLinkRetrain x y ok s
  | .hostReadHalf line half => Sys2Proof.Machine.execHostReadHalf line half s
  | .hostExclusiveHalf line half => Sys2Proof.Machine.execHostExclusiveHalf line half s
  | .hostWritebackHalf line half data => Sys2Proof.Machine.execHostWritebackHalf line half data s
  | .hostBiResponse line half data keep => Sys2Proof.Machine.execHostBiResponse line half data keep s
  | .hostBiTimeout line => Sys2Proof.Machine.execHostBiTimeout line s
  | .putData fr => Sys2Proof.Machine.execPutData fr s
  | .getRequest fr => Sys2Proof.Machine.execGetRequest fr s
  | .getData fr => Sys2Proof.Machine.execGetData fr s
  | .addData fr => Sys2Proof.Machine.execAddData fr s
  | .remAcknowledgement fr => Sys2Proof.Machine.execRemAcknowledgement fr s
  | .remRetransmit x => Sys2Proof.Machine.execRemRetransmit x s
  | .remTransferFail x cause => Sys2Proof.Machine.execRemTransferFail x cause s
  | .errorRecordFlush die => Sys2Proof.Machine.execErrorRecordFlush die s
  | .correctableRecord die core store => Sys2Proof.Machine.execCorrectableRecord die core store s
  | .temperatureBandExit die core temp => Sys2Proof.Machine.execTemperatureBandExit die core temp s
  | .powerOnBoot => Sys2Proof.Machine.execPowerOnBoot s
  | .firmwareUpdate image => Sys2Proof.Machine.execFirmwareUpdate image s
  | .managementReset => Sys2Proof.Machine.execManagementReset s
  | .getVersion req => Sys2Proof.Machine.execGetVersion req s
  | .getCapabilities req => Sys2Proof.Machine.execGetCapabilities req s
  | .negotiateAlgorithms req => Sys2Proof.Machine.execNegotiateAlgorithms req s
  | .getDigests req => Sys2Proof.Machine.execGetDigests req s
  | .getCertificate req => Sys2Proof.Machine.execGetCertificate req s
  | .challenge req => Sys2Proof.Machine.execChallenge req s
  | .getMeasurements req => Sys2Proof.Machine.execGetMeasurements req s
  | .keyExchange req => Sys2Proof.Machine.execKeyExchange req s
  | .finish req => Sys2Proof.Machine.execFinish req s
  | .pstateSet v => Sys2Proof.Machine.execPstateSet v s
  | .pstateChangeDone => Sys2Proof.Machine.execPstateChangeDone s
  | .pstatClear v => Sys2Proof.Machine.execPstatClear v s
  | .plimitWrite v => Sys2Proof.Machine.execPlimitWrite v s
  | .powerLimitThrottle die p => Sys2Proof.Machine.execPowerLimitThrottle die p s
  | .currentClamp die => Sys2Proof.Machine.execCurrentClamp die s
  | .thermalTrip => Sys2Proof.Machine.execThermalTrip s
  | .illegalInstruction insn => Sys2Proof.Machine.execIllegalInstruction insn s
  | .instructionFetchFault => Sys2Proof.Machine.execInstructionFetchFault s
  | .softError loc unc => Sys2Proof.Machine.execSoftError loc unc s
  | .mainRailsOff => Sys2Proof.Machine.execMainRailsOff s

end Sys2Proof.Machine
end

