-- ==== Sys2Proof/Machine/Agenda.lean ====
section
/-! DEFINITION. Which of the machine's own events happens when no instruction issues (DESIGN CHOICE, log entry 1), and what the step at an
issuing warp is: fetch, decode and the instruction's meaning (R51, R52, R68). The order is the model's; each event acts only where
the spec lets it. -/
namespace Sys2Proof.Machine

open Sys2Proof

noncomputable section

/-- The state without the order in which lines were last used. -/
def State.sansUses (s : State) : State :=
  { s with uses := 0, lines := s.lines.map (fun r => { r with use := (LineRec.init r.line).use, lru := 0 }) }

/-- The event changes the state, by more than a later use of lines: only such an event is taken, so that a walk that only waits again
does not hold up the clocks. DESIGN CHOICE, log entry 20. -/
def State.moves (s : State) (e : Instr) : Bool :=
  match exec e s with
  | .next t => decide (t.sansUses ≠ s.sansUses)
  | _ => false

/-- Numbers of the cores at which something is to be found. -/
def State.coresWith (s : State) (p : Core → Bool) : List (Nat × Nat) :=
  (s.cores.zipIdx.filter (fun x => p x.1)).map (fun x => (x.2 / 96, x.2 % 96))

/-- A parked warp whose words have all reached what it waits for, that must execute its instruction again, or whose reads wait at a home
(R185, R187). -/
def State.wakes (s : State) (w : Warp) : Bool :=
  let hit (r : Option Bool × Bool × State) : Bool := r.1 != some false || r.2.1
  match w.wait with
  | some (.joinw ws _) => hit (s.waitReads w 8 (ws.map (fun x => (x.1, x.2, fun v => v == 0))))
  | some (.waitw ws) => hit (s.waitReads w 4 (ws.map (fun x => (x.1, x.2.1, fun v => decide (x.2.2.toNat ≤ v)))))
  | _ => false

/-- Events of a warp: its stores perform, its window commits, its results return, its traps are delivered, it wakes or stops
(R46, R185, R187, R264, R275, R331, R333, R344, R406). -/
def State.warpEvents (s : State) (w : Warp) : List Instr :=
  (if w.cmpWait then [Instr.cmp w.uid] else [])
    ++ (if w.sent.isEmpty then [] else [Instr.wrp (.warp w.uid)])
    ++ (if w.window.isSome || s.copyDue w then [Instr.warpCommit w.uid] else [])
    ++ w.pend.map (fun r => Instr.resultReturn w.uid r)
    ++ (if w.inRun then [] else
        (if w.heldTraps.isEmpty && !w.failing then [] else [Instr.trapDelivery w.uid])
          ++ (if w.kill then [Instr.warpKillStop w.uid] else []))
    ++ (if w.cautious = 1 then [Instr.cautiousModeEnd w.uid] else [])
    ++ (match w.wait with
        | some (.joinw _ _) => if s.wakes w then [Instr.joinwWake w.uid] else []
        | some (.waitw _) => if s.wakes w then [Instr.waitwWake w.uid] else []
        | _ => [])

/-- The event that a request waiting for a line makes when its turn has come; an access of a warp is made again by the warp. -/
def HomeReq.event (line : Nat) : HomeReq → List Instr
  | .rds h => [Instr.rds h line]
  | .ownh i => [Instr.ownh line i]
  | .rdh i => [Instr.hostReadHalf line i]
  | .own c => [Instr.own c line]
  | .addl c => [Instr.addl c line]
  | .acc _ => []
  | .wrp a pa bs => [Instr.wrp (.agent a pa bs)]
  | .atm h k pa x y => [Instr.atm h k pa x y]

/-- Events of a line: completions, acknowledgements, the owner's data, write-backs, Recalls, and the request that is next (R410, R411,
R413, R414, R417). -/
def State.lineEvents (s : State) (r : LineRec) : List Instr :=
  (match r.busy, r.owner with
   | some h, some o => if hb : o < 5 then [Instr.snpfwd ⟨o, hb⟩ r.line h, Instr.cmpack h r.line] else [Instr.cmpack h r.line]
   | some h, none => [Instr.cmpack h r.line]
   | none, _ => [])
    ++ r.acks.map (fun h => Instr.ack h r.line)
    ++ r.wb.map (fun h => Instr.wbd h r.line none)
    ++ (if r.recalled then [Instr.recall r.line] else [])
    ++ ((s.lineQueue r.line).head?.elim [] (HomeReq.event r.line))

/-- Events of the H-die's memory management, error queue and links (R395 to R400, R418, R444, R447). -/
def State.hdieEvents (s : State) : List Instr :=
  (if s.pwr.busy then [Instr.pstateChangeDone] else [])
    ++ (if s.mmu.faults.isEmpty then [] else [Instr.faultRecordEnter])
    ++ (if s.mmu.sdNow.isSome then [Instr.shootdownComplete] else [])
    ++ (if s.mmu.mqhead = s.mmu.mqtail then [] else [Instr.migrationCommandTake])
    ++ s.mmu.migs.map (fun m => Instr.migrationComplete m.uid true)
    ++ ((List.range 4).filter (fun d => !(s.die d).heldErr.isEmpty)).map (fun d => Instr.errorRecordFlush d)
    ++ (if s.err.held.isEmpty then [] else [Instr.errorRecordFlush 7])
    ++ s.dies.zipIdx.flatMap (fun d => (d.1.slices.filter (fun x => !x.retry.isEmpty)).map (fun x => Instr.rtygnt d.2 x.slice))

/-- Events of copies and matrix operations (R231, R245 to R251, R316). -/
def State.engineEvents (s : State) : List Instr :=
  s.cores.flatMap (fun c => c.copies.flatMap (fun x => Instr.copyComplete x.uid ::
      ((x.dueLines.filter (fun n => !x.owned.contains n)).map (fun n => Instr.own x.uid n) ++ x.owned.map (fun n => Instr.wrf x.uid n))))
    ++ (s.coresWith (fun c => c.run.isSome)).flatMap (fun x => [Instr.arrayStep x.1 x.2 [], Instr.mmulComplete x.1 x.2])
    ++ (s.coresWith (fun c => !c.mq.isEmpty)).map (fun x => Instr.mmulStart x.1 x.2)
    ++ (s.teams.filter (fun t => t.mode != .idle)).flatMap (fun t =>
      [Instr.mmodeCModePoint t.gk t.idx, Instr.mmodeCUnpark t.gk t.idx, Instr.mmodeSVerify t.gk t.idx, Instr.mcalComplete t.gk t.idx []])

/-- Events of the launch unit and the dispatchers (R35, R293, R354 to R361). -/
def State.launchEvents (s : State) : List Instr :=
  (s.teams.filter (fun t => t.st == .running)).map (fun t => Instr.teamRetire t.gk t.idx)
    ++ (s.grids.filter (fun g => !g.finished)).flatMap (fun g => [Instr.doneWordAdd g.key, Instr.waitWordNotify g.key])
    ++ ((List.range 64).filter (fun q => (s.headOf q).isSome || s.lu.pushes.any (fun x => x.1 == q))).map (fun q => Instr.admission q)
    ++ (if s.lu.selected.isNone then [Instr.teamSelect] else (List.range s.sku.dies).map (fun d => Instr.teamPlacement d))
    ++ ((List.range s.sku.dies).filter (fun d => (s.die d).waitBack)).map (fun d => Instr.twinBackoffExpiry d)

/-- Events of the Coopers: spills, refills, releases, returns, and yields whose time has come (R369 to R376). -/
def State.cooperEvents (s : State) : List Instr :=
  (s.coresWith (fun c => !c.cooper.store.isEmpty || !c.cooper.parts.isEmpty)).flatMap (fun x =>
    [Instr.ringSpill x.1 x.2, Instr.cooperRelease x.1 x.2]
      ++ (match s.firstDue x.1 x.2 with
          | some (_, t) => if t + 256 ≤ (s.die x.1).cycles then [Instr.warpYield x.1 x.2] else []
          | none => []))
    ++ (s.warps.filter (fun w => w.yielding)).map (fun w => Instr.warpYield w.die w.core)
    ++ (if s.dies.all (fun d => d.rings.isEmpty) then [] else
      (List.range 4).flatMap (fun d => (List.range 96).filterMap (fun k => (s.nextRing d k).map (fun g => Instr.ringRefill d k g))))
    ++ (s.warps.filter (fun w => w.yielded)).map (fun w => Instr.warpRestore w.uid)

/-- Slots that may pick a warp (R300). -/
def State.slotEvents (s : State) : List Instr :=
  (s.warps.filter (fun w => w.ready && s.slotIdle w.die w.core (w.ctx % 4))).map (fun w => Instr.slotPick w.die w.core (w.ctx % 4))

/-- Events that time alone brings, taken when nothing else can happen (R369, R374, R422, R438, R447). -/
def State.timedEvents (s : State) : List Instr :=
  (s.coresWith (fun c => !c.cooper.parts.isEmpty)).flatMap (fun x =>
      let n := (s.core x.1 x.2).cooper.parts.length
      (List.range n).map (fun p => Instr.joinwDueDelay x.1 x.2 p) ++ (List.range n).map (fun p => Instr.partialWarpTimeout x.1 x.2 p)
        ++ [Instr.warpYield x.1 x.2])
    ++ (s.lines.filter (fun r => r.asked.any (·.isSome))).map (fun r => Instr.hostBiTimeout r.line)
    ++ (s.err.corr.filter (fun x => x.2.2.2.1 != 0)).map (fun x => Instr.correctableRecord x.1 x.2.1 x.2.2.1)
    ++ s.net.out.map (fun o => Instr.remRetransmit o.id)

/-- Hosts that have not answered within 10 ms give their halves up (R297, R422), and frames whose timeout is over go out again (R438). -/
def State.overdue (s : State) : List Instr :=
  (s.net.out.filter (fun o => decide (o.due ≤ s.ticks))).map (fun o => Instr.remRetransmit o.id) ++
  (s.lines.filter (fun r => r.asked.any (fun x => x.any (fun y => decide (y.2 + 18 * 10 ^ 7 ≤ s.ticks))))).map (fun r => Instr.hostBiTimeout r.line)

/-- The next event of the machine, if any acts. -/
def State.nextEvent (s : State) : Option Instr :=
  (s.hdieEvents.find? s.moves).or <|
  ((s.allWarps.flatMap s.warpEvents).find? s.moves).or <|
  ((s.lines.flatMap s.lineEvents).find? s.moves).or <|
  ((s.posted.map (fun p => Instr.postedStorePublish p.uid .package)).find? s.moves).or <|
  (if s.lu.permit.isNone && !s.lu.permitQ.isEmpty then some .serialPermitGrant else none).or <|
  (s.engineEvents.find? s.moves).or <|
  (s.launchEvents.find? s.moves).or <|
  (s.cooperEvents.find? s.moves).or <|
  (s.overdue.find? s.moves).or <|
  (s.slotEvents.find? s.moves).or (s.timedEvents.find? s.moves)

/-- The warp in a run whose turn is next, after the one that had it. -/
def State.nextRunning (s : State) : Option Nat := ((s.warps.filter (fun w => w.inRun)).getLast?).map (fun w => w.uid)

/-- One of the machine's own events: it has no words. The instruction that an illegal word or a failed fetch stands for belongs to
the fetch. -/
def Instr.isEvent (e : Instr) : Bool :=
  match e with
  | .illegalInstruction _ => false
  | .instructionFetchFault => false
  | _ => (encodeNat e).isNone

/-- The instruction that the issuing warp's selected entry fetches, with the word; a fetch that fails gives INSTRUCTION_FETCH_FAULT, a word
that does not decode ILLEGAL_INSTRUCTION (R52, R68). None while the walk of the tables waits (R394). -/
def State.fetched (s : State) (w : Warp) (e : FEntry) : Option Instr × State :=
  match s.fetch w e.pc with
  | (.ok word len, s1) =>
    (some (match decodeBytes (leBytes word.toNat len) with
      | some (i, _) => i
      | none => .illegalInstruction word), { s1 with insn := word })
  | (.held, s1) => (none, s1)
  | _ => (some .instructionFetchFault, s)

/-- The warp whose run is under way issues: it leaves its slot if nothing of it can be selected. An entry refilled from a word of the spill area
with an uncorrectable error is frontier state: the warp's teams fail (R308, R443; DESIGN CHOICE, log entry 75). -/
def State.issueNext (s : State) (w : Warp) : Out :=
  match w.selected with
  | none => .next (s.unslot w.uid)
  | some e =>
    if e.bad then .next (s.failTeams w w.liveMask cMCHECK 0 [])
    else
    match s.fetched w e with
    | (some i, s1) => exec i s1
    | (none, s1) => .next (s1.stallAt w none)

/-- No instruction issues: an event of the machine, another warp's run, or a cycle in which nothing happens. -/
def State.pass (s : State) : Out :=
  match (if s.cur.isNone then s.nextRunning else none) with
  | some u => .next (s.resume u)
  | none =>
    match s.nextEvent with
    | some e => exec e { s with stall := false }
    | none =>
      match s.nextRunning with
      | some u => .next (s.resume u)
      | none => .next { s.passTicks 20 with stall := false }

/-- The first event of the agenda; what is no event is dropped. -/
def State.agendaNext (s : State) (e : Instr) (rest : List Instr) : Out :=
  if Instr.isEvent e then exec e { s with agenda := rest } else .next { s with agenda := rest }

end

/-! ## A program placed from outside (DESIGN CHOICE, log entry 19) -/

/-- Where the placed program stands, in physical and virtual addresses alike. -/
def progBase : Nat := 0x10000

/-- Page tables that map the first 512 MiB onto themselves for ASID 0, readable, writable and executable (R392, R393). -/
def progTables : List (Nat × Nat) := [(0x40000, 0x20001), (0x40008, 0), (0x20000, 0x30001), (0x30000, 0x1F)]

/-- Launch record of the placed program: one team of one warp of 16 lanes with 124 registers, a window of 2,048 bytes and 32
stack entries (R349, R350). -/
def progRecord : LaunchRec :=
  { LaunchRec.zero with
    entry := BitVec.ofNat 64 progBase, teams := 1, shape := BitVec.ofNat 32 (31 * 2 ^ 8 + 32 * 2 ^ 13 + 4 * 2 ^ 20) }

/-- Stores the bytes of a program, its page tables, its grid and team, and a warp whose run begins at its first byte (DESIGN CHOICE, log entry
19). -/
def State.withProgram (s : State) (bs : List Byte) : State :=
  let g : Grid := { key := s.nextUid, rcd := progRecord, addr := 0, byRuntime := true, queue := 0, st := .ready, nextTeam := 1,
                    ended := 0, parentKey := none, drained := false, drainTold := false, killed := false, finished := false }
  let t : Team := { gk := g.key, idx := 0, die := 0, core := 0, twin := false, mat := false, units := 0, p0 := 0, tflags := 0,
                    st := .running, placedAt := (s.die 0).cycles, arrivals := [], mode := .idle, due := none }
  let u := g.key + 1
  let x : Seat := { ctx := 0, units := 31, base := 0, width := 16, start := 0, words := 292 }
  let lanes := (List.range 16).map (fun L => { Lane.init 124 with gtid := BitVec.ofNat 64 L, winSeed := s.free + L })
  let w := Warp.start u 0 0 g.key x progRecord 0 false progRecord.entry (fullMask 16) lanes
  let tables := progTables.foldl (fun m e => Memory.writes m e.1 (toBytes 8 e.2)) s.mem
  let old := s.cur.toList
  let mm : Mmu := { s.mmu with atbase := 0x40000 }
  let s1 : State := { s with
    mem := Memory.writes tables progBase bs
    cur := some { w with inRun := true }
    warps := s.warps ++ old
    grids := s.grids ++ [g]
    teams := s.teams ++ [t]
    agenda := []
    stall := false
    snooped := none
    poison := clearPoison s.poison progBase bs.length
    free := s.free + 16
    nextUid := s.nextUid + 2
    mmu := mm }
  (s1.modCore 0 0 (fun c => { c with slots := c.slots.set 0 (some u), tlb := c.tlb.filter (fun e => e.asid != 0), icache := [] })).modDie 0
    (fun d => { d with l2tlb := d.l2tlb.filter (fun e => e.asid != 0) })

end Sys2Proof.Machine
end

