-- ==== Sys2Proof/Machine/Step.lean ====
section
/-! DEFINITION. One step of the package: the next event of the agenda; else the issuing warp's instruction; else an event of the
machine's own (DESIGN CHOICE, log entry 1). -/
namespace Sys2Proof.Machine

open Sys2Proof

/-- One step; without power, or in recovery, only what comes from outside happens (R5, R451). -/
noncomputable def step (s : State) : Host.Outcome State Fault Refusal :=
  match s.agenda with
  | e :: rest => s.agendaNext e rest
  | [] =>
    if !s.up then .next s
    else
      match s.cur with
      | some w => if s.stall then s.pass else s.issueNext w
      | none => s.pass

/-- The state with an instruction stored where the next step fetches it: a program loaded from outside, its warp issuing (DESIGN CHOICE, log entry
19). -/
def State.withFetchWord (s : State) (nbits w : Nat) : State := s.withProgram (leBytes (w % 2 ^ nbits) 4)

end Sys2Proof.Machine
end

