-- ==== Sys2Proof/Safety.lean ====
section
/-! DEFINITION. What claims speak of: the form that every step keeps, a machine that has stopped, a warp that runs an instruction
plainly, the end of such an instruction, and operands in order. -/
namespace Sys2Proof.Machine

open Sys2Proof

/-! ## Runs -/

/-- The form of the state: physical memory is in its canonical form, and the package has its 384 core records, four die records
and 64 launch queues (R1, R13, R352). DEDUCED, log entry 58. -/
def State.Inv (s : State) : Prop :=
  Memory.wf s.mem = true ∧ s.cores.length = 384 ∧ s.dies.length = 4 ∧ s.lu.queues.length = 64

/-- A step from the state stops: with a fault or a refusal. -/
def State.Stops (s : State) : Prop := ∀ t, step s ≠ .next t

/-! ## What an instruction on registers leaves as it was -/

/-- A core without its counters and slots. -/
def Core.quiet (c : Core) : Core := { c with perf := [], slots := [] }

/-- A die without its clock. -/
def Die.quiet (d : Die) : Die := { d with cycles := 0, rest := 0 }

/-- The state without its warps, clocks, counters and slots. -/
def State.quiet (s : State) : State :=
  { s with ticks := 0, cur := none, warps := [], cores := s.cores.map Core.quiet, dies := s.dies.map Die.quiet, stall := false,
           snooped := none }

/-- A warp without its lanes, scalar registers, frontier, pending list, and the counts of its run. -/
def Warp.quiet (w : Warp) : Warp :=
  { w with lanes := [], sregs := [], front := [], pend := [], inRun := false, count := 0, lastIssue := none, cautious := 0,
           rbCount := 0, waitsOn := none }

/-! ## A warp that runs plainly -/

/-- The warp `w` issues from its entry `e` with nothing outstanding: the entry is the selected one (R37, R225), no fault was answered
unresolvable (R273), no result is pending (R48), the warp does not speculate (R332), holds no trap (R264) and waits for nothing
(R45), and none of its teams has failed (R443). Its number is its own and its entry's lanes are lanes of it. -/
structure Issues (s : State) (w : Warp) (e : FEntry) : Prop where
  cur : s.cur = some w
  alone : ∀ x ∈ s.warps, x.uid ≠ w.uid
  selected : w.selected = some e
  pfail : e.pfail = []
  active : e.mask ≠ 0
  lanes : ∀ L, e.mask.getLsbD L = true → L < w.lanes.length
  window : w.window = none
  noTraps : w.heldTraps = []
  sound : w.failing = false
  going : w.stopped = false
  pend : w.pend = []
  wait : w.wait = none

/-- The warp runs plainly: it issues with nothing outstanding, and no lane of it is in a transaction (R222). -/
structure Runs (s : State) (w : Warp) (e : FEntry) : Prop extends Issues s w e where
  noTx : w.anyTx = false

/-- A field of `n` registers names register `r` in a lane (R14, R16). -/
def VReg.names (l : Lane) (x : VReg × Nat) (r : Nat) : Prop :=
  match x.1 with
  | .z => False
  | .v k => k.val ≤ r ∧ r < k.val + x.2
  | .ix j => (l.xr.getD j.val 0).toInt ≤ r ∧ (r : Int) < (l.xr.getD j.val 0).toInt + x.2

/-- RESULTS THAT ARE PENDING (R47, R48): once a warp with none has issued from `e`, the pending numbers are those of its lane
destinations `dst`, in any lane of the entry, and `more`: 0x80 + n for a scalar register, 0xC0 + n for a predicate (R263). -/
def Pends (w : Warp) (e : FEntry) (dst : List (VReg × Nat)) (more : List Nat) (w' : Warp) : Prop :=
  ∀ r, r < 0xC7 → (r ∈ w'.pend ↔ r ∈ more ∨ ∃ L, e.mask.getLsbD L = true ∧ ∃ x ∈ dst, VReg.names (w.lane L) x r)

/-- The instruction of `len` bytes ended for warp `w` as `w'`: every lane of its entry goes on at the next instruction with the
entry's priority (R38, R52), the destinations of variable latency `dst` and `more` are pending and nothing else is (R47), the warp keeps
its other fields, and so does every other warp. -/
structure Ends (s : State) (w : Warp) (e : FEntry) (len : Nat) (t : State) (w' : Warp) (dst : List (VReg × Nat) := [])
    (more : List Nat := []) : Prop where
  here : t.warp? w.uid = some w'
  front : w'.front = addLanes (dropLanes w.front e.mask) (e.pc + BitVec.ofNat 64 len) e.pri e.mask
  pend : Pends w e dst more w'
  rest : w'.quiet = w.quiet
  others : ∀ u, u ≠ w.uid → t.warp? u = s.warp? u

/-- A lane of the warp stands at a program counter, selectable, with at least a priority. -/
def Warp.at (w : Warp) (L : Nat) (pc : DWord) (pri : BitVec 3) : Prop :=
  ∃ x ∈ w.front, x.pc = pc ∧ x.mask.getLsbD L = true ∧ x.park = .no ∧ pri.toNat ≤ x.pri.toNat

/-- The instruction ended for warp `w` as `w'` with the frontier `fr`; the warp keeps its other fields, and so does every other warp. -/
structure Goes (s : State) (w : Warp) (fr : List FEntry) (t : State) (w' : Warp) : Prop where
  here : t.warp? w.uid = some w'
  front : w'.front = fr
  pend : w'.pend = w.pend
  rest : w'.quiet = w.quiet
  others : ∀ u, u ≠ w.uid → t.warp? u = s.warp? u

/-! ## Operands -/

/-- The operand of `n` registers that a field names is in order in a lane: a direct one lies in the allocation (R15); an indexed
one lies in it and is aligned (R16). -/
def VReg.inOrder (alloc : Nat) (l : Lane) (x : VReg × Nat) : Bool :=
  match x.1 with
  | .z => true
  | .v k => decide (k.val + x.2 ≤ alloc)
  | .ix j =>
    let i := (l.xr.getD j.val 0).toInt
    decide (0 ≤ i) && decide (i.toNat + x.2 ≤ alloc) && decide (i.toNat % (if x.2 = 2 then 2 else if x.2 = 4 then 4 else 1) = 0)

/-- No word of the operand has an error, which a read would report or correct (R306). -/
def VReg.sound (l : Lane) (x : VReg × Nat) : Bool :=
  let clean (r : Nat) : Bool := !l.badRegs.contains r && !l.softRegs.contains r
  match x.1 with
  | .z => true
  | .v k => (List.range x.2).all (fun i => clean (k.val + i))
  | .ix j => (List.range x.2).all (fun i => clean ((l.xr.getD j.val 0).toInt.toNat + i))

/-- Sources and destinations are in order in a lane, and the sources can be read. -/
def Lane.ready (l : Lane) (alloc : Nat) (src dst : List (VReg × Nat)) : Bool :=
  (src ++ dst).all (VReg.inOrder alloc l) && src.all (VReg.sound l)

/-- Every lane of the entry has its operands in order. -/
def OperandsReady (w : Warp) (e : FEntry) (src dst : List (VReg × Nat)) : Prop :=
  ∀ L, e.mask.getLsbD L = true → (w.lane L).ready w.alloc src dst = true

/-- The instruction `i` of `len` bytes completes for the warp `w` at its entry `e`: the next state has the warp as some `w'` that
meets `P`, every lane of the entry has gone on, the destinations `var` and `more` are pending, and nothing of the package has changed but
clocks, counters and slots, so no byte of memory. -/
def Completes (i : Instr) (len : Nat) (s : State) (w : Warp) (e : FEntry) (P : Warp → Prop) (var : List (VReg × Nat) := [])
    (more : List Nat := []) : Prop :=
  ∃ t w', exec i s = .next t ∧ Ends s w e len t w' var more ∧ t.quiet = s.quiet ∧ (∀ a, Memory.read t.mem a = Memory.read s.mem a) ∧ P w'

/-- THE RULE OF AN INSTRUCTION ON REGISTERS. It completes in every lane of a warp that runs plainly with operands in order: each lane
of the entry becomes `f` of itself, and no other lane and no scalar register changes. Its destinations `var` of variable latency become
pending (R47). -/
def LaneRule (i : Instr) (len : Nat) (src dst : List (VReg × Nat)) (f : Warp → Nat → Lane → Lane)
    (var : List (VReg × Nat) := []) : Prop :=
  ∀ s w e, Runs s w e → OperandsReady w e src dst →
    Completes i len s w e (fun w' => w'.sregs = w.sregs ∧
      ∀ L, w'.lane L = if e.mask.getLsbD L then f w L (w.lane L) else w.lane L) var

/-- THE RULE OF A FLOATING-POINT INSTRUCTION. Where no flag that a lane raises is enabled in TEN, each lane of the entry takes its
result and has the flags ORed into fflags (R108). `f` gives the lane with its result, and the flags. -/
def FlagRule (i : Instr) (len : Nat) (src dst : List (VReg × Nat)) (f : State → Warp → FEntry → Lane → Lane × FFlags)
    (var : List (VReg × Nat) := []) : Prop :=
  ∀ s w e, Runs s w e → OperandsReady w e src dst →
    (∀ L, e.mask.getLsbD L = true → (f s w e (w.lane L)).2 &&& wmTen w.wmode = 0) →
    Completes i len s w e (fun w' => w'.sregs = w.sregs ∧
      ∀ L, w'.lane L = if e.mask.getLsbD L then (f s w e (w.lane L)).1.orFlags (f s w e (w.lane L)).2 else w.lane L) var

/-- THE RULE OF AN INSTRUCTION THAT MAY TRAP: the same where `ok` holds in each lane of the entry. -/
def LaneRuleIf (i : Instr) (len : Nat) (src dst : List (VReg × Nat)) (ok : State → Warp → FEntry → Nat → Prop)
    (f : State → Warp → FEntry → Nat → Lane → Lane) (var : List (VReg × Nat) := []) : Prop :=
  ∀ s w e, Runs s w e → OperandsReady w e src dst → (∀ L, e.mask.getLsbD L = true → ok s w e L) →
    Completes i len s w e (fun w' => w'.sregs = w.sregs ∧
      ∀ L, w'.lane L = if e.mask.getLsbD L then f s w e L (w.lane L) else w.lane L) var

/-- THE RULE OF A TRANSFER OF CONTROL: once its lanes have left their entry the frontier becomes `fr`, and each of those lanes `f` of
itself; nothing else changes. -/
def MoveRule (i : Instr) (src : List (VReg × Nat)) (ok : State → Warp → FEntry → Prop)
    (fr : Warp → FEntry → List FEntry → List FEntry) (f : Warp → FEntry → Nat → Lane → Lane) : Prop :=
  ∀ s w e, Runs s w e → OperandsReady w e src [] → ok s w e →
    ∃ t w', exec i s = .next t ∧ Goes s w (fr w e (dropLanes w.front e.mask)) t w' ∧ t.quiet = s.quiet ∧ w'.sregs = w.sregs ∧
      (∀ L, w'.lane L = if e.mask.getLsbD L then f w e L (w.lane L) else w.lane L) ∧
      ∀ a, Memory.read t.mem a = Memory.read s.mem a

/-- THE RULE OF A SCALAR INSTRUCTION: once per warp, the scalar registers become `f` of the warp; no lane changes (R123). -/
def ScalarRule (i : Instr) (src dst : List (VReg × Nat)) (f : Warp → FEntry → List Word) : Prop :=
  ∀ s w e, Runs s w e → OperandsReady w e src dst →
    Completes i 4 s w e (fun w' => w'.sregs = f w e ∧ ∀ L, w'.lane L = w.lane L)

/-! ## Memory -/

/-- Every home is idle: no line is owned by an engine, locked, in an operation of its home, waited for, held by a host or being written
back (R206, R289, R410, R413, R415, R422), and no request waits for a tracker (R418). -/
structure State.HomesIdle (s : State) : Prop where
  lines : ∀ r ∈ s.lines, r.isOpen = true ∧ r.hostFree = true ∧ r.queue = [] ∧ r.narrow = [] ∧ r.wb = []
  slices : ∀ d ∈ s.dies, ∀ x ∈ d.slices, x.retry = []

/-- Nothing of the machine stands in the way of an access: every home is idle, no posted store is in flight (R283), no access is left
unperformed for a while (DESIGN CHOICE, log entry 4), fewer loads than an L1 set has ways are out (R385), and no other warp
speculates or is in a transaction, so that a snoop stops nobody (R224, R339). -/
structure State.Calm (s : State) : Prop extends State.HomesIdle s where
  posted : s.posted = []
  defer : s.defer = []
  loads : (s.warps.flatMap (fun x => x.loads)).length < 8
  warps : ∀ x ∈ s.warps, x.window = none ∧ x.anyTx = false

/-- No instruction is under way, and the warp is the one of its number (DESIGN CHOICE, log entry 1). -/
structure Between (s : State) (w : Warp) : Prop where
  cur : s.cur = none
  snooped : s.snooped = none
  here : w ∈ s.warps
  alone : ∀ x ∈ s.warps, x.uid = w.uid → x = w

/-- The plain accesses of the warp have all performed (R331), and only an open transaction holds stores back (R223). -/
def Warp.performed (w : Warp) : Prop :=
  w.sent = [] ∧ w.loads = [] ∧ w.cmpWait = false ∧ ∀ l ∈ w.lanes, l.tx.state ≠ .active → l.tx.wset = []

/-- An access of `n` bytes at a virtual address passes R192 for core `k` of die `d` and reaches a physical address of memory: it is
aligned and in range, and the core's TLB has its page, populated, with the permission (R191, R192, R391, R392). -/
structure ReachesAt (s : State) (d k asid : Nat) (acc : Access) (ea n pa : Nat) : Prop where
  aligned : ea % n = 0
  range : ea < 2 ^ 55
  hit : ∃ x, (s.core d k).tlb.find? (fun x => x.covers asid ea) = some x ∧ x.pa ea = pa ∧ x.io = false ∧ x.refuses acc = none
  populated : s.populated pa = true

/-- An access of a warp reaches a physical address of memory. -/
def Reaches (s : State) (w : Warp) (acc : Access) (ea n pa : Nat) : Prop :=
  ReachesAt s w.die w.core (s.asidOf w.gk) acc ea n pa

/-- The Cooper of a core reaches a range of a grid's address space (R373, R375). -/
def CooperReaches (s : State) (d k gk : Nat) (acc : Access) (va n : Nat) : Prop :=
  (s.core d k).cooper.answers = [] ∧ ∀ p ∈ pieces va n, ∃ pa, ReachesAt s d k (s.asidOf gk) acc p.1 1 pa

/-- The slot at an address stands as the Cooper wrote it: no byte of it is poisoned, and each is what was written there (R373). -/
def SlotKept (s : State) (d k gk va n seed : Nat) : Prop :=
  ∀ pas, (s.coopReach d k gk va n .read).1 = .ok pas → (∀ p ∈ pas, s.poisoned p.1 p.2 = false) ∧
    let bs := pas.flatMap (fun p => bytesAt (Memory.read s.mem) p.1 p.2)
    bs = (List.range bs.length).map (Config.freeByte seed)

/-- The instruction ended for `w` as `w'` at the end of its run, with every lane of its entry at the next instruction, parked for
`p`; the other entries have become `fr` (R42, R45). -/
structure Parks (s : State) (w : Warp) (e : FEntry) (p : Park) (fr : List FEntry) (t : State) (w' : Warp) : Prop where
  here : t.warp? w.uid = some w'
  out : t.cur = none
  front : w'.front = fr ++ [{ FEntry.at (e.pc + 4) e.pri e.mask with park := p }]
  lane : ∀ L, w'.lane L = w.lane L
  mem : ∀ a, Memory.read t.mem a = Memory.read s.mem a

/-- The warp's kernel has matrix ownership of its core for its team `m` (R243). -/
structure OwnsMatrix (s : State) (w : Warp) (m : Team) : Prop where
  original : w.gathered = false
  mat : (s.recOf w.gk).mat = true
  owner : (s.core w.die w.core).mat = some (w.gk, (w.lane 0).team.toNat)
  team : s.team? w.gk (w.lane 0).team.toNat = some m

/-- The grid of the warp has a trap handler, and the warp, outside it, has its trap record at physical address `pa`, aligned and
writable (R266, R268). -/
structure Handles (s : State) (w : Warp) (pa : Nat) : Prop where
  handler : (s.recOf w.gk).traph ≠ 0
  outside : w.handler = false
  place : Reaches s w .write (trapRecAddr (s.recOf w.gk).trapa w).toNat 64 pa

/-- TAKING A TRAP: every lane of the entry has trapped on the instruction `insn` of `len` bytes, and the trap is delivered to the
handler: the record stands in memory at `pa` as R267 lays it out, and the warp is as R268 says. -/
structure Trapped (s : State) (w : Warp) (e : FEntry) (cause detail : Nat) (addr : DWord) (insn : Word) (len pa : Nat) (t : State)
    (w' : Warp) : Prop where
  here : t.warp? w.uid = some w'
  out : t.cur = none
  handler : w'.handler = true
  front : w'.front = [.at (s.recOf w.gk).traph 7 e.mask]
  held : w'.held = dropLanes w.front e.mask
  tcause : w'.tcause = BitVec.ofNat 32 cause
  tepc : w'.tepc = e.pc
  tmask : w'.tmask = e.mask
  trec : w'.trec = trapRecAddr (s.recOf w.gk).trapa w
  tscratch : w'.tscratch = w.tscratch
  wmode : w'.wmode = w.wmode
  sregs : w'.sregs = w.sregs
  lane : ∀ L, w'.lane L = w.lane L
  recCause : Memory.read t.mem pa = BitVec.ofNat 8 cause
  recPri : Memory.read t.mem (pa + 0x01) = e.pri.zeroExtend 8
  recDetail : Memory.read t.mem (pa + 0x02) = BitVec.ofNat 8 detail
  recZero : Memory.read t.mem (pa + 0x03) = 0
  recInsn : valAt (Memory.read t.mem) (pa + 0x04) 4 = insn.toNat
  recPc : valAt (Memory.read t.mem) (pa + 0x08) 8 = e.pc.toNat
  recMask : valAt (Memory.read t.mem) (pa + 0x10) 8 = e.mask.toNat
  recAddr : valAt (Memory.read t.mem) (pa + 0x18) 8 = addr.toNat
  recResume : valAt (Memory.read t.mem) (pa + 0x20) 8 = (e.pc + BitVec.ofNat 64 len).toNat
  recTeam : valAt (Memory.read t.mem) (pa + 0x28) 4 = (w.lane (lowestLane e.mask)).team.toNat
  recRsvd : valAt (Memory.read t.mem) (pa + 0x2C) 4 = 0
  recSid : valAt (Memory.read t.mem) (pa + 0x30) 8 = (w.lane (lowestLane e.mask)).sid.toNat
  recTime : valAt (Memory.read t.mem) (pa + 0x38) 8 = t.timeReg.toNat
  mem : ∀ q, q < pa ∨ pa + 64 ≤ q → Memory.read t.mem q = Memory.read s.mem q
  others : ∀ u, u ≠ w.uid → t.warp? u = s.warp? u

/-- Little-endian value of `n` bytes of memory. -/
def Memory.value (m : List Host.Cell) (a n : Nat) : Nat := valAt (Memory.read m) a n

/-- The instruction ended for the warp in a package whose memory accesses it made: other warps, grids, teams, the launch unit, memory
management and error registers are as before. -/
structure Accessed (s : State) (w : Warp) (e : FEntry) (t : State) (w' : Warp) (var : List (VReg × Nat) := [])
    (more : List Nat := []) : Prop where
  ends : Ends s w e 4 t w' var more
  sregs : w'.sregs = w.sregs
  grids : t.grids = s.grids
  teams : t.teams = s.teams
  lu : t.lu = s.lu
  mmu : t.mmu = s.mmu
  err : t.err = s.err

end Sys2Proof.Machine
end

