-- ==== Sys2Proof/Certificates/Slice0/Obligations.lean ====
section
/-! DEFINITION. The statements for the provers: what the rules of the spec say of each instruction and event, of taking a trap, of reset,
of every step, and of the encoding. -/

open Sys2Proof Sys2Proof.Machine

/-- For a warp that runs plainly with operands in order, each of add, sub, mul, mulhi.i32, mulhi.n32, abs, neg, min and max on
32 bits and add64 to neg64 on pairs answers a next state in which each lane of the entry has the result of the table of R126 or
R127 in D (nothing written for vz), the lanes go on at the next instruction, and every other lane, scalar register, flag,
special register and byte of memory is as before. For a warp that runs plainly with operands in order, addc and subb answer a
next state in which D has the sum or difference with p6 as carry or borrow and p6 has the carry or borrow out; mad.i32 and
mad.i64 add the product of A and C to D; nothing else changes. -/
def Obligations.IntegerResults : Prop :=
  (∀ (d a c : VReg) (b : Bool),
    (∀ x ∈ ([(Instr.add d a c b, fun x y => x + y), (.sub d a c b, fun x y => x - y), (.mul d a c b, fun x y => x * y),
        (.mulhiI32 d a c b, fun x y => BitVec.ofInt 32 (x.toInt * y.toInt / 2 ^ 32)),
        (.mulhiN32 d a c b, fun x y => BitVec.ofNat 32 (x.toNat * y.toNat / 2 ^ 32)),
        (.minI32 d a c b, fun x y => if x.toInt ≤ y.toInt then x else y),
        (.maxI32 d a c b, fun x y => if x.toInt ≤ y.toInt then y else x),
        (.minN32 d a c b, fun x y => if x.toNat ≤ y.toNat then x else y),
        (.maxN32 d a c b, fun x y => if x.toNat ≤ y.toNat then y else x)] : List (Instr × (Word → Word → Word))),
      LaneRule x.1 4 [(a, 1), (c, 1)] [(d, 1)] (fun w _ l => l.setV w.alloc d (x.2 (l.v w.alloc a) (l.v w.alloc c)))) ∧
    (∀ x ∈ ([(Instr.abs d a b, fun x => BitVec.ofInt 32 x.toInt.natAbs), (.neg d a b, fun x => BitVec.ofInt 32 (-x.toInt))]
        : List (Instr × (Word → Word))),
      LaneRule x.1 4 [(a, 1)] [(d, 1)] (fun w _ l => l.setV w.alloc d (x.2 (l.v w.alloc a)))) ∧
    (∀ x ∈ ([(Instr.add64 d a c b, fun x y => x + y), (.sub64 d a c b, fun x y => x - y), (.mul64 d a c b, fun x y => x * y),
        (.minI64 d a c b, fun x y => if x.toInt ≤ y.toInt then x else y),
        (.maxI64 d a c b, fun x y => if x.toInt ≤ y.toInt then y else x),
        (.minN64 d a c b, fun x y => if x.toNat ≤ y.toNat then x else y),
        (.maxN64 d a c b, fun x y => if x.toNat ≤ y.toNat then y else x)] : List (Instr × (DWord → DWord → DWord))),
      LaneRule x.1 4 [(a, 2), (c, 2)] [(d, 2)]
        (fun w _ l => l.setVP w.alloc d (x.2 (l.vp w.alloc a) (l.vp w.alloc c)))) ∧
    LaneRule (.neg64 d a b) 4 [(a, 2)] [(d, 2)] (fun w _ l => l.setVP w.alloc d (BitVec.ofInt 64 (-(l.vp w.alloc a).toInt)))) ∧
  (∀ (d a c : VReg) (b : Bool),
    LaneRule (.addc d a c b) 4 [(a, 1), (c, 1)] [(d, 1)] (fun w _ l =>
      let t := (l.v w.alloc a).toNat + (l.v w.alloc c).toNat + (if l.pred 6 then 1 else 0)
      (l.setV w.alloc d (BitVec.ofNat 32 t)).setPred 6 (decide (t / 2 ^ 32 = 1))) ∧
    LaneRule (.subb d a c b) 4 [(a, 1), (c, 1)] [(d, 1)] (fun w _ l =>
      let t : Int := (l.v w.alloc a).toNat - (l.v w.alloc c).toNat - (if l.pred 6 then 1 else 0)
      (l.setV w.alloc d (BitVec.ofInt 32 t)).setPred 6 (decide (t < 0))) ∧
    LaneRule (.madI32 d a c b) 4 [(d, 1), (a, 1), (c, 1)] [] (fun w _ l =>
      l.setV w.alloc d (l.v w.alloc d + l.v w.alloc a * l.v w.alloc c)) ∧
    LaneRule (.madI64 d a c b) 4 [(d, 2), (a, 2), (c, 2)] [] (fun w _ l =>
      l.setVP w.alloc d (l.vp w.alloc d + l.vp w.alloc a * l.vp w.alloc c)))

/-- For a warp that runs plainly with operands in order, each compare of R130 answers a next state in which predicate D of each
lane of the entry is the truth of its condition (discarded for pt) and nothing else changes. For a warp that runs plainly with
operands in order, the logic and shift instructions answer a next state in which D of each lane of the entry has the result of
the tables of R131 and R132 and nothing else changes. For a warp that runs plainly with operands in order, bfe, bfi, fshl, fshr,
prmt and sel answer a next state in which D of each lane of the entry has the result of R133 or R134 (pos, len, sh and the
selectors taken from C; for prmt, byte k is byte v of the pair, 0xFF, the sign of the byte below, or 0 as its selector says) and
nothing else changes. -/
def Obligations.CompareLogicAndFieldResults : Prop :=
  (∀ (d : PReg) (a c : VReg) (b : Bool),
    (∀ x ∈ ([(Instr.cmpEq d a c b, fun x y => decide (x = y)), (.cmpNe d a c b, fun x y => decide (x ≠ y)),
        (.cmpLtI d a c b, fun x y => decide (x.toInt < y.toInt)), (.cmpLeI d a c b, fun x y => decide (x.toInt ≤ y.toInt)),
        (.cmpLtN d a c b, fun x y => decide (x.toNat < y.toNat)), (.cmpLeN d a c b, fun x y => decide (x.toNat ≤ y.toNat)),
        (.cmpTst d a c b, fun x y => decide (x &&& y ≠ 0))] : List (Instr × (Word → Word → Bool))),
      LaneRule x.1 4 [(a, 1), (c, 1)] [] (fun w _ l => l.setPred d (x.2 (l.v w.alloc a) (l.v w.alloc c)))) ∧
    (∀ x ∈ ([(Instr.cmp64Eq d a c b, fun x y => decide (x = y)), (.cmp64Ne d a c b, fun x y => decide (x ≠ y)),
        (.cmp64LtI d a c b, fun x y => decide (x.toInt < y.toInt)), (.cmp64LeI d a c b, fun x y => decide (x.toInt ≤ y.toInt)),
        (.cmp64LtN d a c b, fun x y => decide (x.toNat < y.toNat)), (.cmp64LeN d a c b, fun x y => decide (x.toNat ≤ y.toNat)),
        (.cmp64Tst d a c b, fun x y => decide (x &&& y ≠ 0))] : List (Instr × (DWord → DWord → Bool))),
      LaneRule x.1 4 [(a, 2), (c, 2)] [] (fun w _ l => l.setPred d (x.2 (l.vp w.alloc a) (l.vp w.alloc c))))) ∧
  ((∀ (d a c : VReg) (n : BitVec 5) (b : Bool),
    (∀ x ∈ ([(Instr.and d a c b, fun x y => x &&& y), (.or d a c b, fun x y => x ||| y), (.xor d a c b, fun x y => x ^^^ y),
        (.andn d a c b, fun x y => x &&& ~~~y), (.shl d a c b, fun x y => x <<< (y.toNat % 32)),
        (.shr d a c b, fun x y => x >>> (y.toNat % 32)), (.sra d a c b, fun x y => x.sshiftRight (y.toNat % 32)),
        (.rotl d a c b, fun x y => (x <<< (y.toNat % 32)) ||| (x >>> (32 - y.toNat % 32))),
        (.rotr d a c b, fun x y => (x >>> (y.toNat % 32)) ||| (x <<< (32 - y.toNat % 32)))]
        : List (Instr × (Word → Word → Word))),
      LaneRule x.1 4 [(a, 1), (c, 1)] [(d, 1)] (fun w _ l => l.setV w.alloc d (x.2 (l.v w.alloc a) (l.v w.alloc c)))) ∧
    (∀ x ∈ ([(Instr.not d a b, fun x => ~~~x),
        (.popc d a b, fun x => BitVec.ofNat 32 ((List.range 32).countP (fun i => x.getLsbD i))),
        (.clz d a b, fun x => BitVec.ofNat 32 (if x = 0 then 32 else 31 - Nat.log2 x.toNat)),
        (.brev d a b, fun x => x.reverse), (.shli d a n b, fun x => x <<< n.toNat), (.shri d a n b, fun x => x >>> n.toNat),
        (.srai d a n b, fun x => x.sshiftRight n.toNat),
        (.rotli d a n b, fun x => (x <<< n.toNat) ||| (x >>> (32 - n.toNat)))] : List (Instr × (Word → Word))),
      LaneRule x.1 4 [(a, 1)] [(d, 1)] (fun w _ l => l.setV w.alloc d (x.2 (l.v w.alloc a))))) ∧
  (∀ (p : PReg) (d a c : VReg) (b : Bool),
    let pos (y : Word) : Nat := y.toNat % 32
    let len (y : Word) : Nat := min (y.toNat / 2 ^ 8 % 64) (32 - pos y)
    let field (x y : Word) : Nat := x.toNat / 2 ^ pos y % 2 ^ len y
    let m (y : Word) : Word := BitVec.ofNat 32 (2 ^ len y - 1) <<< pos y
    let byte (x : DWord) (y : Word) (k : Nat) (below : Byte) : Byte :=
      let v := y.toNat / 2 ^ (4 * k) % 16
      if v ≤ 7 then x.extractLsb' (8 * v) 8 else if v = 9 then 0xFF else if v = 10 ∧ 0 < k ∧ below.msb = true then 0xFF else 0
    let permute (x : DWord) (y : Word) : Word :=
      let b0 := byte x y 0 0
      let b1 := byte x y 1 b0
      let b2 := byte x y 2 b1
      byte x y 3 b2 ++ b2 ++ b1 ++ b0
    (∀ x ∈ ([(Instr.bfeN d a c b, fun x y => BitVec.ofNat 32 (field x y)),
        (.bfeI d a c b, fun x y => if len y = 0 then 0 else
          BitVec.ofInt 32 (if field x y < 2 ^ (len y - 1) then (field x y : Int) else (field x y : Int) - 2 ^ len y))]
        : List (Instr × (Word → Word → Word))),
      LaneRule x.1 4 [(a, 1), (c, 1)] [(d, 1)] (fun w _ l => l.setV w.alloc d (x.2 (l.v w.alloc a) (l.v w.alloc c)))) ∧
    LaneRule (.bfi d a c b) 4 [(d, 1), (a, 1), (c, 1)] [] (fun w _ l =>
      let y := l.v w.alloc c
      l.setV w.alloc d ((l.v w.alloc d &&& ~~~m y) ||| ((l.v w.alloc a <<< pos y) &&& m y))) ∧
    (∀ x ∈ ([(Instr.fshl d a c b, fun x y => BitVec.ofNat 32 (x.toNat * 2 ^ (y.toNat % 32) / 2 ^ 32)),
        (.fshr d a c b, fun x y => BitVec.ofNat 32 (x.toNat / 2 ^ (y.toNat % 32))), (.prmt d a c b, permute)]
        : List (Instr × (DWord → Word → Word))),
      LaneRule x.1 4 [(a, 2), (c, 1)] [(d, 1)] (fun w _ l => l.setV w.alloc d (x.2 (l.vp w.alloc a) (l.v w.alloc c)))) ∧
    LaneRule (.sel p d a c b) 4 [(a, 1), (c, 1)] [(d, 1)] (fun w _ l =>
      l.setV w.alloc d (if l.pred p then l.v w.alloc a else l.v w.alloc c))))

/-- For a warp that runs plainly with operands in order, addi, andi, ori, xori, li, lih, lea, leai, xset and xget answer a next
state in which each lane of the entry has the result that R135 to R139 give and nothing else changes. -/
def Obligations.ImmediateAddressIndexResults : Prop :=
  ∀ (d a c : VReg) (i : BitVec 10) (j : BitVec 17) (sh : BitVec 3) (x : XReg) (b : Bool),
    (∀ y ∈ ([(Instr.addi d a i b, fun v => v + i.signExtend 32), (.andi d a i b, fun v => v &&& i.signExtend 32),
        (.ori d a i b, fun v => v ||| i.signExtend 32), (.xori d a i b, fun v => v ^^^ i.signExtend 32)]
        : List (Instr × (Word → Word))),
      LaneRule y.1 4 [(a, 1)] [(d, 1)] (fun w _ l => l.setV w.alloc d (y.2 (l.v w.alloc a)))) ∧
    LaneRule (.li d j b) 4 [] [(d, 1)] (fun w _ l => l.setV w.alloc d (j.signExtend 32)) ∧
    LaneRule (.lih d j b) 4 [(d, 1)] [] (fun w _ l =>
      l.setV w.alloc d (BitVec.ofNat 32 (j.toNat * 2 ^ 15 + (l.v w.alloc d).toNat % 2 ^ 15))) ∧
    LaneRule (.lea d a c sh b) 4 [(a, 2), (c, 1)] [(d, 2)] (fun w _ l =>
      l.setVP w.alloc d (BitVec.ofInt 64 ((l.vp w.alloc a).toNat + (l.v w.alloc c).toInt * 2 ^ sh.toNat))) ∧
    LaneRule (.leai d a i b) 4 [(a, 2)] [(d, 2)] (fun w _ l => l.setVP w.alloc d (l.vp w.alloc a + i.signExtend 64)) ∧
    LaneRule (.xset x a i b) 4 [(a, 1)] [] (fun w _ l =>
      { l with xr := l.xr.set x.val (BitVec.ofInt 16 ((l.v w.alloc a).toInt + i.toInt)) }) ∧
    LaneRule (.xget d x b) 4 [] [(d, 1)] (fun w _ l => l.setV w.alloc d ((l.xr.getD x.val 0).signExtend 32))

/-- For a warp that runs plainly, sadd to sshr, saddi, sli, smov, and v2s where its operand is in order in its lowest active
lane (R143), answer a next state in which S(D) has the result of R140 to R142 and every lane and other scalar register is as
before; s2v writes S(A) to D, and scmp the truth of its condition to the predicate, in each lane of the entry. -/
def Obligations.ScalarResults : Prop :=
  ∀ (d a c : SReg) (v : VReg) (p : PReg) (i : BitVec 10) (j : BitVec 17) (b : Bool),
    (∀ x ∈ ([(Instr.sadd d a c b, fun x y => x + y), (.ssub d a c b, fun x y => x - y), (.smul d a c b, fun x y => x * y),
        (.sand d a c b, fun x y => x &&& y), (.sor d a c b, fun x y => x ||| y), (.sxor d a c b, fun x y => x ^^^ y),
        (.sshl d a c b, fun x y => x <<< (y.toNat % 32)), (.sshr d a c b, fun x y => x >>> (y.toNat % 32)),
        (.saddi d a i b, fun x _ => x + i.signExtend 32), (.sli d j b, fun _ _ => j.signExtend 32),
        (.smov d a b, fun x _ => x)] : List (Instr × (Word → Word → Word))),
      ScalarRule x.1 [] [] (fun w _ => w.sregs.set d.val (x.2 (w.sv a.val) (w.sv c.val)))) ∧
    (∀ s w e, Runs s w e → (w.lane (lowestLane e.mask)).ready w.alloc [(v, 1)] [] = true →
      Completes (.v2s d v b) 4 s w e (fun w' => w'.sregs = w.sregs.set d.val ((w.lane (lowestLane e.mask)).v w.alloc v) ∧
        ∀ L, w'.lane L = w.lane L)) ∧
    (∀ x ∈ ([(Instr.scmpEq p a c b, fun x y => decide (x = y)), (.scmpNe p a c b, fun x y => decide (x ≠ y)),
        (.scmpLtI p a c b, fun x y => decide (x.toInt < y.toInt)),
        (.scmpLtN p a c b, fun x y => decide (x.toNat < y.toNat))] : List (Instr × (Word → Word → Bool))),
      LaneRule x.1 4 [] [] (fun w _ l => l.setPred p (x.2 (w.sv a.val) (w.sv c.val)))) ∧
    LaneRule (.s2v v a b) 4 [] [(v, 1)] (fun w _ l => l.setV w.alloc v (w.sv a.val))

/-- For a warp that runs plainly with operands in order, each 16-bit form answers a next state, two bytes on, in which D of each
lane of the entry has the result of the 32-bit instruction of the same name with A equal to D; the floating-point forms OR their
flags into fflags where none is enabled in TEN. -/
def Obligations.HalfwordFormResults : Prop :=
  ∀ (d c : LReg) (i : BitVec 5) (b : Bool),
    let vd : VReg := .v ⟨d.val, by omega⟩
    let vc : VReg := .v ⟨c.val, by omega⟩
    (∀ x ∈ ([(Instr.mov16 d c b, fun _ y => y), (.add16 d c b, fun x y => x + y), (.sub16 d c b, fun x y => x - y),
        (.and16 d c b, fun x y => x &&& y), (.or16 d c b, fun x y => x ||| y), (.xor16 d c b, fun x y => x ^^^ y),
        (.shl16 d c b, fun x y => x <<< (y.toNat % 32)), (.shr16 d c b, fun x y => x >>> (y.toNat % 32)),
        (.mul16 d c b, fun x y => x * y)] : List (Instr × (Word → Word → Word))),
      LaneRule x.1 2 [(vd, 1), (vc, 1)] [] (fun w _ l => l.setV w.alloc vd (x.2 (l.reg d.val) (l.reg c.val)))) ∧
    LaneRule (.addi16 d i b) 2 [(vd, 1)] [] (fun w _ l => l.setV w.alloc vd (l.reg d.val + i.signExtend 32)) ∧
    (∀ x ∈ ([(Instr.fadd16 d c b, f32.add), (.fsub16 d c b, f32.sub), (.fmul16 d c b, f32.mul),
        (.fmin16 d c b, fun z _ => f32.minMax false z), (.fmax16 d c b, fun z _ => f32.minMax true z)]
        : List (Instr × (Bool → Bool → Nat → Nat → Enc))),
      FlagRule x.1 2 [(vd, 1), (vc, 1)] [] (fun _ w _ l =>
        let r := x.2 (wmDaz w.wmode) (wmFtz w.wmode) (l.reg d.val).toNat (l.reg c.val).toNat
        (l.setV w.alloc vd (BitVec.ofNat 32 r.1), r.2)))

/-- For a warp that runs plainly with operands in order and no raised flag enabled in TEN, each f32, packed f16 and packed bf16
operation, each fused multiply-add and each floating dot product answers a next state in which D of each lane of the entry has
the encoding that the model of R100 to R110 gives for its operation on the operands, with DAZ and FTZ of wmode, and fflags has
the flags ORed in; classification and integer dot products write D alone. For a warp that runs plainly with operands in order
and no raised flag enabled in TEN, each f64 operation answers a next state with its encoding in the pair D, and each floating
compare one with its truth in predicate D, the flags ORed into fflags and nothing else changed. -/
def Obligations.FloatResults : Prop :=
  (∀ (d a c : VReg) (b : Bool),
    let both (f : Bool → Bool → Nat → Nat → Enc) : Bool → Bool → Nat → Nat → Enc := fun z t x y =>
      let lo := f z t (x % 2 ^ 16) (y % 2 ^ 16)
      let hi := f z t (x / 2 ^ 16) (y / 2 ^ 16)
      (lo.1 % 2 ^ 16 + hi.1 * 2 ^ 16, lo.2 ||| hi.2)
    (∀ x ∈ ([(Instr.fadd d a c b, f32.add), (.fsub d a c b, f32.sub), (.fmul d a c b, f32.mul),
        (.fmin d a c b, fun z _ => f32.minMax false z), (.fmax d a c b, fun z _ => f32.minMax true z),
        (.faddF16 d a c b, both f16.add), (.fsubF16 d a c b, both f16.sub), (.fmulF16 d a c b, both f16.mul),
        (.fminF16 d a c b, both (fun z _ => f16.minMax false z)), (.fmaxF16 d a c b, both (fun z _ => f16.minMax true z)),
        (.faddBf16 d a c b, both bf16.add), (.fsubBf16 d a c b, both bf16.sub), (.fmulBf16 d a c b, both bf16.mul),
        (.fminBf16 d a c b, both (fun z _ => bf16.minMax false z)),
        (.fmaxBf16 d a c b, both (fun z _ => bf16.minMax true z))] : List (Instr × (Bool → Bool → Nat → Nat → Enc))),
      FlagRule x.1 4 [(a, 1), (c, 1)] [(d, 1)] (fun _ w _ l =>
        let r := x.2 (wmDaz w.wmode) (wmFtz w.wmode) (l.v w.alloc a).toNat (l.v w.alloc c).toNat
        (l.setV w.alloc d (BitVec.ofNat 32 r.1), r.2))) ∧
    (∀ x ∈ ([(Instr.fabs d a b, fun z _ x _ => f32.absV z x), (.fneg d a b, fun z _ x _ => f32.negV z x),
        (.fabsF16 d a b, both (fun z _ x _ => f16.absV z x)), (.fnegF16 d a b, both (fun z _ x _ => f16.negV z x)),
        (.fabsBf16 d a b, both (fun z _ x _ => bf16.absV z x)), (.fnegBf16 d a b, both (fun z _ x _ => bf16.negV z x))]
        : List (Instr × (Bool → Bool → Nat → Nat → Enc))),
      FlagRule x.1 4 [(a, 1)] [(d, 1)] (fun _ w _ l =>
        let r := x.2 (wmDaz w.wmode) (wmFtz w.wmode) (l.v w.alloc a).toNat 0
        (l.setV w.alloc d (BitVec.ofNat 32 r.1), r.2))) ∧
    (∀ x ∈ ([(Instr.ffma d a c b, f32.fma false false), (.ffms d a c b, f32.fma false true),
        (.fnma d a c b, f32.fma true true), (.fnms d a c b, f32.fma true false),
        (.fdot4E4m3 d a c b, fun _ _ x y z => fdot e4m3 8 4 (BitVec.ofNat 32 x) (BitVec.ofNat 32 y) (BitVec.ofNat 32 z)),
        (.fdot4E5m2 d a c b, fun _ _ x y z => fdot e5m2 8 4 (BitVec.ofNat 32 x) (BitVec.ofNat 32 y) (BitVec.ofNat 32 z)),
        (.fdot8E2m1 d a c b, fun _ _ x y z => fdot e2m1 4 8 (BitVec.ofNat 32 x) (BitVec.ofNat 32 y) (BitVec.ofNat 32 z)),
        (.fdot2Bf16 d a c b, fun _ _ x y z => fdot bf16 16 2 (BitVec.ofNat 32 x) (BitVec.ofNat 32 y) (BitVec.ofNat 32 z))]
        : List (Instr × (Bool → Bool → Nat → Nat → Nat → Enc))),
      FlagRule x.1 4 [(d, 1), (a, 1), (c, 1)] [] (fun _ w _ l =>
        let r := x.2 (wmDaz w.wmode) (wmFtz w.wmode) (l.v w.alloc a).toNat (l.v w.alloc c).toNat (l.v w.alloc d).toNat
        (l.setV w.alloc d (BitVec.ofNat 32 r.1), r.2))) ∧
    (∀ x ∈ ([(Instr.fclass d a b, f32.classMask), (.fclassF16 d a b, fun n => f16.classMask (n % 2 ^ 16) + f16.classMask (n / 2 ^ 16) * 2 ^ 16),
        (.fclassBf16 d a b, fun n => bf16.classMask (n % 2 ^ 16) + bf16.classMask (n / 2 ^ 16) * 2 ^ 16)]
        : List (Instr × (Nat → Nat))),
      LaneRule x.1 4 [(a, 1)] [(d, 1)] (fun w _ l => l.setV w.alloc d (BitVec.ofNat 32 (x.2 (l.v w.alloc a).toNat)))) ∧
    (∀ x ∈ ([(Instr.dot4I8 d a c b, (8, 4, true)), (.dot4N8 d a c b, (8, 4, false)), (.dot8I4 d a c b, (4, 8, true)),
        (.dot8N4 d a c b, (4, 8, false))] : List (Instr × (Nat × Nat × Bool))),
      LaneRule x.1 4 [(d, 1), (a, 1), (c, 1)] [] (fun w _ l =>
        let el (v : Word) (k : Nat) : Int := let e := v.toNat / 2 ^ (x.2.1 * k) % 2 ^ x.2.1
          if x.2.2.2 = true ∧ 2 ^ (x.2.1 - 1) ≤ e then (e : Int) - 2 ^ x.2.1 else e
        l.setV w.alloc d (BitVec.ofInt 32 ((l.v w.alloc d).toNat
          + ((List.range x.2.2.1).map (fun k => el (l.v w.alloc a) k * el (l.v w.alloc c) k)).sum))))) ∧
  (∀ (d a c : VReg) (p : PReg) (b : Bool),
    (∀ x ∈ ([(Instr.faddF64 d a c b, f64.add), (.fsubF64 d a c b, f64.sub), (.fmulF64 d a c b, f64.mul),
        (.fminF64 d a c b, fun z _ => f64.minMax false z), (.fmaxF64 d a c b, fun z _ => f64.minMax true z)]
        : List (Instr × (Bool → Bool → Nat → Nat → Enc))),
      FlagRule x.1 4 [(a, 2), (c, 2)] [(d, 2)] (fun _ w _ l =>
        let r := x.2 (wmDaz w.wmode) (wmFtz w.wmode) (l.vp w.alloc a).toNat (l.vp w.alloc c).toNat
        (l.setVP w.alloc d (BitVec.ofNat 64 r.1), r.2))) ∧
    (∀ x ∈ ([(Instr.fabsF64 d a b, fun z x => f64.absV z x), (.fnegF64 d a b, fun z x => f64.negV z x)]
        : List (Instr × (Bool → Nat → Enc))),
      FlagRule x.1 4 [(a, 2)] [(d, 2)] (fun _ w _ l =>
        let r := x.2 (wmDaz w.wmode) (l.vp w.alloc a).toNat
        (l.setVP w.alloc d (BitVec.ofNat 64 r.1), r.2))) ∧
    FlagRule (.ffmaF64 d a c b) 4 [(d, 2), (a, 2), (c, 2)] [] (fun _ w _ l =>
      let r := f64.fma false false (wmDaz w.wmode) (wmFtz w.wmode) (l.vp w.alloc a).toNat (l.vp w.alloc c).toNat
        (l.vp w.alloc d).toNat
      (l.setVP w.alloc d (BitVec.ofNat 64 r.1), r.2)) ∧
    (∀ x ∈ ([(Instr.fcmpEq p a c b, .eq), (.fcmpLt p a c b, .lt), (.fcmpLe p a c b, .le), (.fcmpUn p a c b, .un)]
        : List (Instr × FCmp)),
      FlagRule x.1 4 [(a, 1), (c, 1)] [] (fun _ w _ l =>
        let r := f32.cmp x.2 (wmDaz w.wmode) (l.v w.alloc a).toNat (l.v w.alloc c).toNat
        (l.setPred p r.1, r.2))) ∧
    (∀ x ∈ ([(Instr.fcmpEqF64 p a c b, .eq), (.fcmpLtF64 p a c b, .lt), (.fcmpLeF64 p a c b, .le), (.fcmpUnF64 p a c b, .un)]
        : List (Instr × FCmp)),
      FlagRule x.1 4 [(a, 2), (c, 2)] [] (fun _ w _ l =>
        let r := f64.cmp x.2 (wmDaz w.wmode) (l.vp w.alloc a).toNat (l.vp w.alloc c).toNat
        (l.setPred p r.1, r.2))))

/-- For a warp that runs plainly with operands in order and no raised flag enabled in TEN, every listed conversion selector with
every rounding field, frnd, fscl, fpk and fupk answer a next state in which D of each lane of the entry has the value that the
model of R154 to R160 gives, in as many registers as the conversion has, fflags has its flags ORed in and nothing else changes.
-/
def Obligations.ConversionResults : Prop :=
  ∀ (d a c : VReg) (rnd : Rnd) (cv : BitVec 7) (b : Bool),
    (∀ k wd wa, cvtKind cv.toNat = some k → cvtWidths cv = some (wd, wa) →
      FlagRule (.cvt rnd d a cv b) 4 [(a, wa)] [(d, wd)] (fun s w e l =>
        let src := (List.range wa).map (fun i => l.rd w.alloc a wa i)
        let n := src.foldr (fun v t => v.toNat + t * 2 ^ 32) 0
        let r := cvtValue k (s.modes w.gk l e.pc rnd w.wmode src) (wmDaz w.wmode) (wmFtz w.wmode) n
        (l.wr w.alloc d ((List.range wd).map (fun i => BitVec.ofNat 32 (r.1 / 2 ^ (32 * i)))), r.2))) ∧
    FlagRule (.frnd d a rnd b) 4 [(a, 1)] [(d, 1)] (fun s w e l =>
      let v := l.v w.alloc a
      let r := frndValue (s.modes w.gk l e.pc rnd w.wmode [v] 0) (wmDaz w.wmode) v.toNat
      (l.setV w.alloc d (BitVec.ofNat 32 r.1), r.2)) ∧
    FlagRule (.fscl d a c b) 4 [(a, 1), (c, 1)] [(d, 1)] (fun _ w _ l =>
      let r := fsclValue (wmDaz w.wmode) (wmFtz w.wmode) (l.v w.alloc a).toNat (l.v w.alloc c).toInt
      (l.setV w.alloc d (BitVec.ofNat 32 r.1), r.2)) ∧
    (∀ x ∈ ([(Instr.fpk16 d a c b, f16), (.fpkbf d a c b, bf16)] : List (Instr × Fmt)),
      FlagRule x.1 4 [(a, 1), (c, 1)] [(d, 1)] (fun _ w _ l =>
        let lo := x.2.convert .rne (wmFtz w.wmode) (f32.read (wmDaz w.wmode) (l.v w.alloc a).toNat)
        let hi := x.2.convert .rne (wmFtz w.wmode) (f32.read (wmDaz w.wmode) (l.v w.alloc c).toNat)
        (l.setV w.alloc d (BitVec.ofNat 32 (lo.1 % 2 ^ 16 + hi.1 * 2 ^ 16)), lo.2 ||| hi.2))) ∧
    (∀ x ∈ ([(Instr.fupk16 d a b, f16), (.fupkbf d a b, bf16)] : List (Instr × Fmt)),
      FlagRule x.1 4 [(a, 1)] [(d, 2)] (fun _ w _ l =>
        let lo := f32.convert .rne (wmFtz w.wmode) (x.2.read (wmDaz w.wmode) ((l.v w.alloc a).toNat % 2 ^ 16))
        let hi := f32.convert .rne (wmFtz w.wmode) (x.2.read (wmDaz w.wmode) ((l.v w.alloc a).toNat / 2 ^ 16))
        (l.wr w.alloc d [BitVec.ofNat 32 lo.1, BitVec.ofNat 32 hi.1], lo.2 ||| hi.2)))

/-- For a warp that runs plainly with operands in order and no raised flag enabled in TEN, rcp, rsq, sqrt, exp2, log2, sin, cos
and tanh answer a next state with the rounded function value in D, and rng.q0 to q3 and rngf one with four words of the ChaCha8
block keyed by the grid, with counter C and stream A, in the quad D; the registers of D in the lanes of the entry are pending
(R47), no other number is, and nothing else changes. -/
def Obligations.FunctionAndRandomResults : Prop :=
  ∀ (d a c : VReg) (b : Bool),
    (∀ x ∈ ([(Instr.rcp d a b, .rcp), (.rsq d a b, .rsq), (.sqrt d a b, .sqrt), (.exp2 d a b, .exp2), (.log2 d a b, .log2),
        (.sin d a b, .sin), (.cos d a b, .cos), (.tanh d a b, .tanh)] : List (Instr × SfuFn)),
      FlagRule x.1 4 [(a, 1)] [(d, 1)] (fun _ w _ l =>
        let r := sfuValue x.2 (wmDaz w.wmode) (wmFtz w.wmode) (l.v w.alloc a).toNat
        (l.setV w.alloc d (BitVec.ofNat 32 r.1), r.2)) [(d, 1)]) ∧
    (∀ x ∈ ([(Instr.rngQ0 d a c b, 0), (.rngQ1 d a c b, 1), (.rngQ2 d a c b, 2), (.rngQ3 d a c b, 3)] : List (Instr × Nat)),
      LaneRuleIf x.1 4 [(a, 2), (c, 2)] [(d, 4)] (fun _ _ _ _ => True) (fun s w _ _ l =>
        let blk := chacha8 (s.rngKey w.gk) (l.vp w.alloc c) (l.vp w.alloc a)
        l.wr w.alloc d ((List.range 4).map (fun i => blk.getD (4 * x.2 + i) 0))) [(d, 4)]) ∧
    LaneRuleIf (.rngf d a c b) 4 [(a, 2), (c, 2)] [(d, 4)] (fun _ _ _ _ => True) (fun s w _ _ l =>
      let blk := chacha8 (s.rngKey w.gk) (l.vp w.alloc c) (l.vp w.alloc a)
      l.wr w.alloc d ((List.range 4).map (fun i => unitF32 ((blk.getD i 0).toNat / 256)))) [(d, 4)]

/-- For a warp that runs plainly with operands in order (for SHFL, A in order in every source lane that is live), each shuffle
answers a next state in which D of each lane of the entry has what A held in its source lane before the instruction (0 from a
lane that is not live) and D is pending (R47), and each vote one in which its destination has the value of R172 over the lanes
of the entry; nothing else changes. -/
def Obligations.LaneExchangeResults : Prop :=
  ∀ (d a c : VReg) (p q : PReg) (sd : SReg) (b : Bool),
    (∀ x ∈ ([(Instr.shflIdx d a c b, fun _ n sg _ => n % sg), (.shflUp d a c b, fun _ n sg o => (o + sg - n % sg) % sg),
        (.shflDown d a c b, fun _ n sg o => (o + n) % sg), (.shflXor d a c b, fun _ n sg o => o ^^^ n % sg)]
        : List (Instr × (Unit → Nat → Nat → Nat → Nat))),
      let source (w : Warp) (L : Nat) : Nat :=
        let y := ((w.lane L).v w.alloc c).toNat
        let g := y / 2 ^ 8 % 8
        let sg := if g = 0 ∨ g = 7 then w.width else min (2 ^ g) w.width
        L - L % sg + x.2 () (y % 2 ^ 7) sg (L % sg)
      LaneRuleIf x.1 4 [(c, 1)] [(d, 1)]
        (fun _ w _ L => 0 < w.width ∧ (∀ k, a = .v k → k.val < w.alloc) ∧ ((w.lane (source w L)).life = .live →
          VReg.inOrder w.alloc (w.lane (source w L)) (a, 1) = true ∧ VReg.sound (w.lane (source w L)) (a, 1) = true))
        (fun _ w _ L l => l.setV w.alloc d (if (w.lane (source w L)).life = .live then (w.lane (source w L)).v w.alloc a else 0)) [(d, 1)]) ∧
    (∀ x ∈ ([(Instr.voteAny p q b, fun w m _ => decide (∃ M ∈ lanesOf m, (w.lane M).pred q = true)),
        (.voteAll p q b, fun w m _ => decide (∀ M ∈ lanesOf m, (w.lane M).pred q = true)),
        (.voteEq p q b, fun w m _ => decide (∀ M ∈ lanesOf m, ∀ N ∈ lanesOf m, (w.lane M).pred q = (w.lane N).pred q)),
        (.voteElect p b, fun _ m L => decide (∀ M ∈ lanesOf m, L ≤ M))] : List (Instr × (Warp → Mask → Nat → Bool))),
      LaneRuleIf x.1 4 [] [] (fun _ _ _ _ => True) (fun _ w e L l => l.setPred p (x.2 w e.mask L))) ∧
    (∀ x ∈ ([(Instr.voteBallot sd q b, fun w (e : FEntry) => maskOf ((lanesOf e.mask).filter (fun L => (w.lane L).pred q))),
        (.voteActive sd b, fun _ e => e.mask)] : List (Instr × (Warp → FEntry → Mask))),
      ScalarRule x.1 [] [] (fun w e => (w.sregs.set sd.val ((x.2 w e).extractLsb' 0 32)).set (sd.val + 1)
        ((x.2 w e).extractLsb' 32 32))) ∧
    LaneRuleIf (.voteMatch d a b) 4 [(a, 1)] [(d, 2)] (fun _ _ _ _ => True) (fun _ w e _ l =>
      let same := (lanesOf e.mask).filter (fun M => (w.lane M).v w.alloc a = l.v w.alloc a)
      l.wr w.alloc d [BitVec.ofNat 32 (same.headD 0), BitVec.ofNat 32 same.length])

/-- For a warp that runs plainly: br and call (not diverging where marked uniform, and for call no full stack in a taken lane)
answer a next state in which the lanes of the entry whose condition holds have joined the frontier at the target with PRI and
the others at the next instruction with the priority of the entry; call and calli push the next address, ret pops; jmpi and
calli send each lane to its pair A, ret to its popped address; prio sets the priority of the entry and nop does nothing; no
other lane, register, warp or byte of memory changes. In a calm package, for a warp whose stores have performed, with no copy of
it still to issue and no barrier or mode instance of its team under way, each of whose lanes with a join counter reaches it free
of poison, exit answers a next state in which the warp has ended if no entry of it is left, and else its lanes have exited and
stand in no entry, the entries held behind a handler that has ended being released; each join counter has gone down by the
number of lanes that name it, and every other lane and byte of memory is as before. -/
def Obligations.TransfersAndExitMoveLanes : Prop :=
  (∀ (off : BitVec 16) (pn : Bool) (pg : PReg) (pr n : BitVec 3) (u b : Bool) (a : VReg),
    let cond (w : Warp) (L : Nat) : Bool := (w.lane L).pred pg != pn
    let uniform (w : Warp) (e : FEntry) : Prop := u = true →
      (∀ L, e.mask.getLsbD L = true → cond w L = true) ∨ ∀ L, e.mask.getLsbD L = true → cond w L = false
    let good (t : DWord) : Prop := t.getLsbD 0 = false ∧ t.toNat < 2 ^ 55
    let depth (s : State) (w : Warp) : Nat := 8 * ((s.recOf w.gk).shape.toNat / 2 ^ 20 % 2 ^ 4)
    let pushed (e : FEntry) (l : Lane) : Lane :=
      { l with stack := (e.pc + 4) :: l.stack, stackPoison := l.stackPoison.filter (· != l.stack.length) }
    let branches (w : Warp) (e : FEntry) (fr : List FEntry) : List FEntry :=
      let taken := maskOf ((lanesOf e.mask).filter (cond w))
      addLanes (addLanes fr (e.pc + 2 * off.signExtend 64) pr taken) (e.pc + 4) e.pri (e.mask &&& ~~~taken)
    let each (goal : Warp → Nat → DWord) (w : Warp) (e : FEntry) (fr : List FEntry) : List FEntry :=
      (lanesOf e.mask).foldl (fun x L => addLanes x (goal w L) e.pri (laneBit L)) fr
    MoveRule (.br off pn pg pr u b) [] (fun _ w e => uniform w e) branches (fun _ _ _ l => l) ∧
    MoveRule (.call off pn pg pr u b) []
      (fun s w e => uniform w e ∧ ∀ L, e.mask.getLsbD L = true → cond w L = true → (w.lane L).stack.length < depth s w) branches
      (fun w e L l => if cond w L then pushed e l else l) ∧
    MoveRule (.jmpi a b) [(a, 2)] (fun _ w e => ∀ L, e.mask.getLsbD L = true → good ((w.lane L).vp w.alloc a))
      (each (fun w L => (w.lane L).vp w.alloc a)) (fun _ _ _ l => l) ∧
    MoveRule (.calli a b) [(a, 2)]
      (fun s w e => ∀ L, e.mask.getLsbD L = true → good ((w.lane L).vp w.alloc a) ∧ (w.lane L).stack.length < depth s w)
      (each (fun w L => (w.lane L).vp w.alloc a)) (fun _ e _ l => pushed e l) ∧
    MoveRule (.ret b) []
      (fun _ w e => ∀ L, e.mask.getLsbD L = true → (w.lane L).stack ≠ [] ∧ good ((w.lane L).stack.headD 0) ∧
        (w.lane L).stackPoison.contains ((w.lane L).stack.length - 1) = false)
      (each (fun w L => (w.lane L).stack.headD 0))
      (fun _ _ _ l => { l with stack := l.stack.tail, stackPoison := l.stackPoison.filter (· < l.stack.length - 1) }) ∧
    MoveRule (.prio n b) [] (fun _ _ _ => True) (fun _ e fr => addLanes fr (e.pc + 4) n e.mask) (fun _ _ _ l => l) ∧
    MoveRule (.nop b) [] (fun _ _ _ => True) (fun _ e fr => addLanes fr (e.pc + 4) e.pri e.mask) (fun _ _ _ l => l)) ∧
  (∀ (b : Bool) (s : State) (w : Warp) (e : FEntry) (pa : Nat → Nat), Runs s w e → State.Calm s → Warp.performed w →
    s.copyDue w = false → w.barm = none → (∀ x ∈ s.teams, x.gk = w.gk → x.idx = (w.lane 0).team.toNat → x.arrivals = [] ∧ x.mode = .idle) →
    (w.handler = false → w.held = []) →
    (∀ L, e.mask.getLsbD L = true → ∀ j, (w.lane L).join = some j →
      Reaches s w .atomic j.toNat 8 (pa L) ∧ pa L % 8 = 0 ∧ touchesPoison s.poison (pa L) 8 = false) →
    let joins := (lanesOf e.mask).filter (fun L => (w.lane L).join.isSome)
    let left := dropLanes w.front e.mask
    let after := if w.handler = true ∧ left = [] then mergeFront w.held else left
    ∃ t, exec (.exit b) s = .next t ∧
      (∀ q, (∀ L ∈ joins, q < pa L ∨ pa L + 8 ≤ q) → Memory.read t.mem q = Memory.read s.mem q) ∧
      (∀ L ∈ joins, Memory.value t.mem (pa L) 8 =
        (Memory.value s.mem (pa L) 8 + 2 ^ 64 - joins.countP (fun M => pa M == pa L)) % 2 ^ 64) ∧
      (after = [] → t.warp? w.uid = none) ∧
      (after ≠ [] → ∃ w', t.warp? w.uid = some w' ∧ w'.front = after ∧ w'.handler = (w.handler && left != []) ∧
        ∀ L, w'.lane L = if e.mask.getLsbD L then { w.lane L with life := .exited } else w.lane L))

/-- In a calm package, for a warp whose stores have performed and each of whose lanes reaches readable memory free of poison,
every form of ldg, and ldc within the constant block, answers a next state in which D of each lane of the entry has the little-
endian value at its address, zero- or sign-extended from 8 and 16 bits, and is pending (R47), and no byte of memory, other lane,
scalar register, warp, grid or register of the H-die has changed. -/
def Obligations.GlobalLoadsReadMemory : Prop :=
  ∀ (d a : VReg) (off : BitVec 7) (b : Bool),
    let rule (i : Instr) (n : Nat) (signed : Bool) (na : Nat) (ea : State → Warp → Lane → Nat)
        (inside : State → Warp → Lane → Prop) : Prop :=
      ∀ s w e, Runs s w e → State.Calm s → Warp.performed w →
        OperandsReady w e [(a, na)] [(d, if n ≤ 4 then 1 else n / 4)] → ∀ pa : Nat → Nat,
        (∀ L, e.mask.getLsbD L = true → inside s w (w.lane L) ∧ Reaches s w .read (ea s w (w.lane L)) n (pa L) ∧
          touchesPoison s.poison (pa L) n = false) →
        ∃ t w', exec i s = .next t ∧ Accessed s w e t w' [(d, if n ≤ 4 then 1 else n / 4)] ∧
          (∀ q, Memory.read t.mem q = Memory.read s.mem q) ∧
          ∀ L, w'.lane L = if e.mask.getLsbD L then
            let v := Memory.value s.mem (pa L) n
            (w.lane L).wr w.alloc d (if n ≤ 4 then
                [if signed then BitVec.ofInt 32 (if v < 2 ^ (8 * n - 1) then (v : Int) else (v : Int) - 2 ^ (8 * n))
                 else BitVec.ofNat 32 v]
              else (List.range (n / 4)).map (fun i => BitVec.ofNat 32 (v / 2 ^ (32 * i))))
          else w.lane L
    (∀ x ∈ ([(Instr.ldgB8N d a off b, (1, false)), (.ldgB8I d a off b, (1, true)), (.ldgB16N d a off b, (2, false)),
        (.ldgB16I d a off b, (2, true)), (.ldgB32 d a off b, (4, false)), (.ldgB64 d a off b, (8, false)),
        (.ldgB128 d a off b, (16, false))] : List (Instr × (Nat × Bool))),
      rule x.1 x.2.1 x.2.2 2 (fun _ w l => (l.vp w.alloc a + off.signExtend 64 * BitVec.ofNat 64 x.2.1).toNat)
        (fun _ _ _ => True)) ∧
    rule (.ldc d a off b) 4 false 1
      (fun s w l => ((s.recOf w.gk).const + BitVec.ofInt 64 ((l.v w.alloc a).toNat + off.toInt * 4)).toNat)
      (fun s w l => ((l.v w.alloc a).toNat + off.toInt * 4) % 4 = 0 ∧ 0 ≤ (l.v w.alloc a).toNat + off.toInt * 4 ∧
        (l.v w.alloc a).toNat + off.toInt * 4 + 4 ≤ (s.recOf w.gk).constsz.toNat)

/-- In a calm package, for a warp whose stores have performed and each of whose lanes reaches writable memory free of poison,
every form of stg answers a next state in which each byte of memory that the accesses of the entry cover holds what the highest
lane covering it stored (little-endian, from D) and every other byte reads as before; no lane, scalar register, other warp, grid
or register of the H-die changes. Memory is the model's without deferral (log entry 4). -/
def Obligations.GlobalStoresWriteMemory : Prop :=
  ∀ (d a : VReg) (off : BitVec 7) (b : Bool),
    ∀ x ∈ ([(Instr.stgB8 d a off b, 1), (.stgB16 d a off b, 2), (.stgB32 d a off b, 4), (.stgB64 d a off b, 8),
        (.stgB128 d a off b, 16)] : List (Instr × Nat)),
      let n := x.2
      let r := if n ≤ 4 then 1 else n / 4
      ∀ s w e, Runs s w e → State.Calm s → Warp.performed w → OperandsReady w e [(d, r), (a, 2)] [] → ∀ pa : Nat → Nat,
        (∀ L, e.mask.getLsbD L = true →
          Reaches s w .write ((w.lane L).vp w.alloc a + off.signExtend 64 * BitVec.ofNat 64 n).toNat n (pa L) ∧
          touchesPoison s.poison (pa L) n = false) →
        let covers (L q : Nat) : Prop := e.mask.getLsbD L = true ∧ pa L ≤ q ∧ q < pa L + n
        ∃ t w', exec x.1 s = .next t ∧ Accessed s w e t w' ∧ (∀ L, w'.lane L = w.lane L) ∧
          (∀ q, (∀ L, ¬ covers L q) → Memory.read t.mem q = Memory.read s.mem q) ∧
          ∀ L q, covers L q → (∀ M, L < M → ¬ covers M q) →
            Memory.read t.mem q = BitVec.ofNat 8 (((w.lane L).rd w.alloc d r ((q - pa L) / 4)).toNat / 2 ^ (8 * ((q - pa L) % 4)))

/-- In a calm package, for a warp whose stores have performed and each of whose lanes reaches writable memory free of poison,
every form of stgp answers a next state in which no byte of memory has changed and the posted stores in flight are, in lane
order, one of each lane of the entry with its address, bytes, warp and team, seen by no other agent yet. In a calm package, for
a warp that runs plainly with its address pair in order, pfg.l1 and pfg.l2 answer a next state in which every lane goes on and
no lane, scalar register, other warp, byte of memory, grid or register of the H-die has changed, whether or not an address can
be reached. -/
def Obligations.PostedStoresAndPrefetches : Prop :=
  (∀ (d a : VReg) (off : BitVec 7) (b : Bool),
    ∀ x ∈ ([(Instr.stgpB8 d a off b, 1), (.stgpB16 d a off b, 2), (.stgpB32 d a off b, 4), (.stgpB64 d a off b, 8),
        (.stgpB128 d a off b, 16)] : List (Instr × Nat)),
      let n := x.2
      let r := if n ≤ 4 then 1 else n / 4
      ∀ s w e, Runs s w e → State.Calm s → Warp.performed w → OperandsReady w e [(d, r), (a, 2)] [] → ∀ pa : Nat → Nat,
        (∀ L, e.mask.getLsbD L = true →
          Reaches s w .write ((w.lane L).vp w.alloc a + off.signExtend 64 * BitVec.ofNat 64 n).toNat n (pa L) ∧
          touchesPoison s.poison (pa L) n = false) →
        ∃ t w', exec x.1 s = .next t ∧ Accessed s w e t w' ∧ (∀ L, w'.lane L = w.lane L) ∧
          (∀ q, Memory.read t.mem q = Memory.read s.mem q) ∧
          t.posted.map (fun p => (p.w, p.lane, p.die, p.core, p.gk, p.team, p.pa, p.bytes, p.seen, p.scopes)) =
            (lanesOf e.mask).map (fun L => (w.uid, L, w.die, w.core, w.gk, (w.lane L).team.toNat, pa L,
              (w.lane L).dataBytes w.alloc d n, [], []))) ∧
  (∀ (a : VReg) (off : BitVec 7) (b : Bool), ∀ i ∈ [Instr.pfgL1 a off b, .pfgL2 a off b],
    ∀ s w e, Runs s w e → State.Calm s → OperandsReady w e [(a, 2)] [] →
      ∃ t w', exec i s = .next t ∧ Accessed s w e t w' ∧ (∀ L, w'.lane L = w.lane L) ∧
        ∀ q, Memory.read t.mem q = Memory.read s.mem q)

/-- In a calm package, for a warp whose stores have performed and each of whose lanes has an aligned offset inside its running
team's allocation free of poison (for sta in storage mode), every form of lda answers a next state with the value of the storage
view in D, which is pending (R47), and every form of sta one in which each array byte has what the highest lane covering it
stored and every other array byte, and all of memory, is as before. -/
def Obligations.ArrayAccessesReachTheTeamsMacros : Prop :=
  ∀ (d a : VReg) (off : BitVec 7) (b : Bool),
    let ea (w : Warp) (l : Lane) (n : Nat) : Int := (l.v w.alloc a).toNat + off.toInt * n
    let place (t : Team) (o : Nat) : Nat × Nat :=
      if o / 12288 < t.units then (t.core, 12288 * (t.p0 + o / 12288) + o % 12288)
      else (t.core + 1, 12288 * (t.p0 + (o / 12288 - t.units)) + o % 12288)
    let inside (s : State) (w : Warp) (l : Lane) (n : Nat) (t : Team) (k o : Nat) : Prop :=
      s.team? w.gk l.team.toNat = some t ∧ ea w l n % n = 0 ∧ 0 ≤ ea w l n ∧
      ea w l n + n ≤ 12288 * t.units * (if t.twin then 2 else 1) ∧ place t (ea w l n).toNat = (k, o) ∧
      touchesPoison (s.core t.die k).arrPoison o n = false
    (∀ x ∈ ([(Instr.ldaB8N d a off b, (1, false)), (.ldaB8I d a off b, (1, true)), (.ldaB16N d a off b, (2, false)),
        (.ldaB16I d a off b, (2, true)), (.ldaB32 d a off b, (4, false)), (.ldaB64 d a off b, (8, false)),
        (.ldaB128 d a off b, (16, false))] : List (Instr × (Nat × Bool))),
      ∀ s w e, Runs s w e → State.Calm s → Warp.performed w →
        OperandsReady w e [(a, 1)] [(d, if x.2.1 ≤ 4 then 1 else x.2.1 / 4)] → ∀ (tm : Nat → Team) (k o : Nat → Nat),
        (∀ L, e.mask.getLsbD L = true → inside s w (w.lane L) x.2.1 (tm L) (k L) (o L)) →
        ∃ t w', exec x.1 s = .next t ∧ Accessed s w e t w' [(d, if x.2.1 ≤ 4 then 1 else x.2.1 / 4)] ∧
          (∀ q, Memory.read t.mem q = Memory.read s.mem q) ∧
          ∀ L, w'.lane L = if e.mask.getLsbD L then
            (w.lane L).wr w.alloc d (loadWords x.2.1 x.2.2 (valAt (fun q => (s.core (tm L).die (k L)).arrayByte q) (o L) x.2.1))
          else w.lane L) ∧
    (∀ x ∈ ([(Instr.staB8 d a off b, 1), (.staB16 d a off b, 2), (.staB32 d a off b, 4), (.staB64 d a off b, 8),
        (.staB128 d a off b, 16)] : List (Instr × Nat)),
      ∀ s w e, Runs s w e → State.Calm s → Warp.performed w →
        OperandsReady w e [(d, if x.2 ≤ 4 then 1 else x.2 / 4), (a, 1)] [] → ∀ (tm : Nat → Team) (k o : Nat → Nat),
        (∀ L, e.mask.getLsbD L = true → inside s w (w.lane L) x.2 (tm L) (k L) (o L) ∧
          ((s.core (tm L).die (k L)).units.getD (o L / 12288) CimUnit.init).mode ≠ .compute ∧
          96 * (tm L).die + k L < s.cores.length) →
        let covers (L m q : Nat) : Prop := e.mask.getLsbD L = true ∧ 96 * (tm L).die + k L = m ∧ o L ≤ q ∧ q < o L + x.2
        ∃ t w', exec x.1 s = .next t ∧ Accessed s w e t w' ∧ (∀ L, w'.lane L = w.lane L) ∧
          (∀ q, Memory.read t.mem q = Memory.read s.mem q) ∧
          (∀ m q, (∀ L, ¬ covers L m q) →
            (t.cores.getD m Core.init).arrayByte q = (s.cores.getD m Core.init).arrayByte q) ∧
          ∀ L m q, covers L m q → (∀ M, L < M → ¬ covers M m q) →
            (t.cores.getD m Core.init).arrayByte q = ((w.lane L).dataBytes w.alloc d x.2).getD (q - o L) 0)

/-- For a warp that runs plainly with operands in order and each offset aligned, inside the window and free of poison, ldp
answers a next state with the little-endian value of the lane's window in D, which is pending (R47), and stp one in which
exactly the stored bytes of that lane's window have changed, to the bytes of D. -/
def Obligations.PrivateWindowAccesses : Prop :=
  ∀ (d a : VReg) (off : BitVec 7) (b : Bool),
    let ea (w : Warp) (l : Lane) (n : Nat) : Int := (l.v w.alloc a).toNat + off.toInt * n
    let ok (n : Nat) (s : State) (w : Warp) (_ : FEntry) (L : Nat) : Prop :=
      ea w (w.lane L) n % n = 0 ∧ 0 ≤ ea w (w.lane L) n ∧
      ea w (w.lane L) n + n ≤ 64 * ((s.recOf w.gk).shape.toNat / 2 ^ 13 % 2 ^ 7) ∧
      touchesPoison (w.lane L).winPoison (ea w (w.lane L) n).toNat n = false
    (∀ x ∈ ([(Instr.ldpB32 d a off b, 4), (.ldpB64 d a off b, 8), (.ldpB128 d a off b, 16)] : List (Instr × Nat)),
      LaneRuleIf x.1 4 [(a, 1)] [(d, x.2 / 4)] (ok x.2) (fun _ w _ _ l =>
        l.wr w.alloc d ((List.range (x.2 / 4)).map (fun i =>
          BitVec.ofNat 32 (valAt l.winByte ((ea w l x.2).toNat + 4 * i) 4)))) [(d, x.2 / 4)]) ∧
    (∀ x ∈ ([(Instr.stpB32 d a off b, 4), (.stpB64 d a off b, 8), (.stpB128 d a off b, 16)] : List (Instr × Nat)),
      ∀ s w e, Runs s w e → OperandsReady w e [(d, x.2 / 4), (a, 1)] [] →
        (∀ L, e.mask.getLsbD L = true → ok x.2 s w e L) →
        Completes x.1 4 s w e (fun w' => w'.sregs = w.sregs ∧
          (∀ L, e.mask.getLsbD L = false → w'.lane L = w.lane L) ∧
          ∀ L, e.mask.getLsbD L = true →
            { w'.lane L with win := [], winPoison := [] } = { w.lane L with win := [], winPoison := [] } ∧
            ∀ q, (w'.lane L).winByte q = if (ea w (w.lane L) x.2).toNat ≤ q ∧ q < (ea w (w.lane L) x.2).toNat + x.2
              then ((w.lane L).dataBytes w.alloc d x.2).getD (q - (ea w (w.lane L) x.2).toNat) 0
              else (w.lane L).winByte q))

/-- In a calm package, for a warp whose stores have performed, with no trap enabled in TEN, each of whose lanes reaches readable
and writable memory free of poison, each atomic answers a next state in which every byte that no lane covers reads as before,
and for each lane whose bytes no other lane of the entry touches, D has the old value and is pending (R47), memory the value of
R203 or R205 (for cas only where the old value equals D), and the flags of a floating-point sum come with its result (R204);
nothing else of the warp changes. -/
def Obligations.AtomicsReadModifyWrite : Prop :=
  ∀ (d a c : VReg) (b : Bool),
    let lo (f : Word → Word → Word) (m y _z : Nat) : Option Nat := some (f (BitVec.ofNat 32 m) (BitVec.ofNat 32 y)).toNat
    let hi (f : DWord → DWord → DWord) (m y _z : Nat) : Option Nat := some (f (BitVec.ofNat 64 m) (BitVec.ofNat 64 y)).toNat
    let cas (i : Instr) : Bool := match i with | .cas32 _ _ _ _ | .cas64 _ _ _ _ | .cas128 _ _ _ _ => true | _ => false
    let swap (m y z : Nat) : Option Nat := if m = z then some y else none
    let flags (i : Instr) (m y : Nat) : FFlags := match i with
      | .atomFaddF32 _ _ _ _ => (f32.add false false m y).2 | .atomFaddF64 _ _ _ _ => (f64.add false false m y).2 | _ => 0
    ∀ x ∈ ([(Instr.atomAdd d a c b, (4, lo (fun m y => m + y))),
        (.atomMinI d a c b, (4, lo (fun m y => if m.toInt ≤ y.toInt then m else y))),
        (.atomMaxI d a c b, (4, lo (fun m y => if m.toInt ≤ y.toInt then y else m))),
        (.atomAnd d a c b, (4, lo (fun m y => m &&& y))), (.atomOr d a c b, (4, lo (fun m y => m ||| y))),
        (.atomXor d a c b, (4, lo (fun m y => m ^^^ y))), (.atomXchg d a c b, (4, lo (fun _ y => y))),
        (.atomFaddF32 d a c b, (4, fun m y _ => some (f32.add false false m y).1)),
        (.atomAddI64 d a c b, (8, hi (fun m y => m + y))),
        (.atomMinI64 d a c b, (8, hi (fun m y => if m.toInt ≤ y.toInt then m else y))),
        (.atomMaxI64 d a c b, (8, hi (fun m y => if m.toInt ≤ y.toInt then y else m))),
        (.atomMinN64 d a c b, (8, hi (fun m y => if m.toNat ≤ y.toNat then m else y))),
        (.atomMaxN64 d a c b, (8, hi (fun m y => if m.toNat ≤ y.toNat then y else m))),
        (.atomXchg64 d a c b, (8, hi (fun _ y => y))), (.atomFaddF64 d a c b, (8, fun m y _ => some (f64.add false false m y).1)),
        (.atomAddI128 d a c b, (16, fun m y _ => some ((m + y) % 2 ^ 128))), (.cas32 d a c b, (4, swap)),
        (.cas64 d a c b, (8, swap)), (.cas128 d a c b, (16, swap))]
        : List (Instr × (Nat × (Nat → Nat → Nat → Option Nat)))),
      let n := x.2.1
      ∀ s w e, Runs s w e → State.Calm s → Warp.performed w → wmTen w.wmode = 0 →
        OperandsReady w e ([(a, 2), (c, n / 4)] ++ if cas x.1 then [(d, n / 4)] else []) [(d, n / 4)] → ∀ pa : Nat → Nat,
        (∀ L, e.mask.getLsbD L = true → Reaches s w .atomic ((w.lane L).vp w.alloc a).toNat n (pa L) ∧
          touchesPoison s.poison (pa L) n = false) →
        ∃ t w', exec x.1 s = .next t ∧ Accessed s { w with lateFlags := w'.lateFlags } e t w' [(d, n / 4)] ∧
          (∀ L, e.mask.getLsbD L = false → w'.lane L = w.lane L) ∧
          (∀ q, (∀ L, e.mask.getLsbD L = true → q < pa L ∨ pa L + n ≤ q) → Memory.read t.mem q = Memory.read s.mem q) ∧
          ∀ L, e.mask.getLsbD L = true →
            (∀ M, e.mask.getLsbD M = true → M ≠ L → pa M + n ≤ pa L ∨ pa L + n ≤ pa M) →
            let m := Memory.value s.mem (pa L) n
            let y := (w.lane L).opVal w.alloc c n
            let fl := flags x.1 m y
            w'.lane L = (w.lane L).wr w.alloc d (loadWords n false m) ∧
            Memory.value t.mem (pa L) n = (x.2.2 m y ((w.lane L).opVal w.alloc d n)).getD m % 2 ^ (8 * n) ∧
            (∀ z ∈ w'.lateFlags, z ∈ w.lateFlags ∨ z.2.1 ≠ L ∨ (z.2.2 = fl ∧ fl ≠ 0)) ∧
            (fl ≠ 0 → ∃ z ∈ w'.lateFlags, z.2 = (L, fl))

/-- In a calm package, for a warp of a running team, not gathered and not in handler mode, whose stores have performed, bar and
every barr answer a next state in which each lane of the entry has an arrival with its thread number, function, value and
destination. Where a live thread of the team has not arrived the lanes are parked at the barrier; where every one has, by bar,
the instance is over and every arrived entry becomes selectable at its warp's next run. -/
def Obligations.BarrierArrivals : Prop :=
  ∀ (d a : VReg) (b : Bool),
    let pair (l : Lane) (n : Nat) : DWord := l.vp n a
    let word (l : Lane) (n : Nat) : DWord := (l.v n a).zeroExtend 64
    ∀ x ∈ ([(Instr.bar b, ([], ([], fun _ _ => (none, (0, VReg.z))))),
        (.barrAddI64 d a b, ([(a, 2)], ([(d, 2)], fun l n => (some 0, (pair l n, d))))),
        (.barrAddF32 d a b, ([(a, 1)], ([(d, 1)], fun l n => (some 1, (word l n, d))))),
        (.barrAddF64 d a b, ([(a, 2)], ([(d, 2)], fun l n => (some 2, (pair l n, d))))),
        (.barrMinF32 d a b, ([(a, 1)], ([(d, 1)], fun l n => (some 3, (word l n, d))))),
        (.barrMaxF32 d a b, ([(a, 1)], ([(d, 1)], fun l n => (some 4, (word l n, d))))),
        (.barrMinI64 d a b, ([(a, 2)], ([(d, 2)], fun l n => (some 5, (pair l n, d))))),
        (.barrMaxI64 d a b, ([(a, 2)], ([(d, 2)], fun l n => (some 6, (pair l n, d))))),
        (.barrOrB32 d a b, ([(a, 1)], ([(d, 1)], fun l n => (some 7, (word l n, d)))))]
        : List (Instr × (List (VReg × Nat) × (List (VReg × Nat) × (Lane → Nat → Option Nat × (DWord × VReg)))))),
      ∀ s w e m, Runs s w e → State.Calm s → Warp.performed w → OperandsReady w e x.2.1 x.2.2.1 → w.gathered = false →
        w.handler = false → w.checkBarm = w → s.team? w.gk (w.lane 0).team.toNat = some m → m.st = .running → m.mode = .idle →
        let arrival (L : Nat) : Arrival :=
          let v := x.2.2.2 (w.lane L) w.alloc
          { w := w.uid, lane := L, tid := w.index.toNat * w.width + L, fn := v.1, val := v.2.1, dst := v.2.2, pc := e.pc,
            pri := e.pri, insn := s.insn }
        let all := m.arrivals ++ (lanesOf e.mask).map arrival
        let awaited (u : Warp) (L : Nat) : Prop :=
          u ∈ w :: s.warps ∧ u.gk = m.gk ∧ u.gathered = false ∧ (u.lane 0).team.toNat = m.idx ∧ L < u.width ∧
            (u.lane L).life = .live ∧ ∀ r ∈ all, ¬(r.w = u.uid ∧ r.lane = L)
        ((∃ u L, awaited u L) → ∃ t w', exec x.1 s = .next t ∧ Parks s w e .bar (dropLanes w.front e.mask) t w' ∧
          t.team? w.gk (w.lane 0).team.toNat = some { m with arrivals := all } ∧
          (∀ u, u ≠ w.uid → t.warp? u = s.warp? u)) ∧
        ((∀ u L, ¬ awaited u L) → (∀ r ∈ all, r.fn = none) → ∃ t w', exec x.1 s = .next t ∧
          Parks s w e .nextRun (unpark (dropLanes w.front e.mask) (fun f => f.park == .bar)) t w' ∧
          t.team? w.gk (w.lane 0).team.toNat = some { m with arrivals := [] } ∧
          ∀ u, u ≠ w.uid → t.warp? u = (s.warp? u).map (fun y =>
            if m.arrivals.any (fun r => r.w == u) then y.unparkAll (fun f => f.park == .bar) else y))

/-- In a calm package, where the lanes of an entry that execute a barr are the last threads of their running team to arrive, all
with the same function, and no warp of the team enables a trap, barr answers a next state in which every arrived lane of every
warp has the root of the tree of R111 in its destination and the flags raised anywhere in the tree in fflags; neighbours combine
by the function's operation and an absent leaf leaves the other. -/
def Obligations.BarrierReductions : Prop :=
  (∀ (fn : Nat) (p q r u : DWord),
      let op (x y : DWord) : DWord := (barrOp fn x y).1
      (barrTree fn 2 [some p, some q, some r, some u] 0).1 = some (op (op p q) (op r u)) ∧
      (barrTree fn 2 [some p, none, some r, some u] 0).1 = some (op p (op r u)) ∧
      (barrTree fn 2 [none, none, some r, some u] 0).1 = some (op r u) ∧
      (barrTree fn 2 [some p, none, none, none] 0).1 = some p) ∧
    (∀ p q : DWord, (barrOp 0 p q).1 = p + q ∧ (barrOp 5 p q).1 = (if p.toInt ≤ q.toInt then p else q) ∧
      (barrOp 6 p q).1 = (if p.toInt ≤ q.toInt then q else p) ∧ (barrOp 7 p q).1 = p ||| q) ∧
    ∀ (d a : VReg) (b : Bool),
    ∀ x ∈ ([(Instr.barrAddI64 d a b, (0, true)), (.barrAddF32 d a b, (1, false)), (.barrAddF64 d a b, (2, true)),
        (.barrMinF32 d a b, (3, false)), (.barrMaxF32 d a b, (4, false)), (.barrMinI64 d a b, (5, true)),
        (.barrMaxI64 d a b, (6, true)), (.barrOrB32 d a b, (7, false))] : List (Instr × (Nat × Bool))),
      let n := if x.2.2 then 2 else 1
      ∀ s w e m, Runs s w e → State.Calm s → Warp.performed w → OperandsReady w e [(a, n)] [(d, n)] → w.gathered = false →
        w.handler = false → w.checkBarm = w → s.team? w.gk (w.lane 0).team.toNat = some m → m.st = .running → m.mode = .idle →
        let arrival (L : Nat) : Arrival :=
          { w := w.uid, lane := L, tid := w.index.toNat * w.width + L, fn := some x.2.1,
            val := if x.2.2 then (w.lane L).vp w.alloc a else ((w.lane L).v w.alloc a).zeroExtend 64, dst := d, pc := e.pc,
            pri := e.pri, insn := s.insn }
        let all := m.arrivals ++ (lanesOf e.mask).map arrival
        (∀ u ∈ w :: s.warps, u.gk = m.gk → u.gathered = false → (u.lane 0).team.toNat = m.idx → ∀ L < u.width,
          (u.lane L).life = .live → ∃ r ∈ all, r.w = u.uid ∧ r.lane = L) →
        all.Pairwise (fun p q => ¬(p.w = q.w ∧ p.lane = q.lane)) → (∀ r ∈ all, r.fn = some x.2.1) →
        (∀ r ∈ all, ∃ y, s.warp? r.w = some y ∧ r.lane < y.lanes.length ∧ wmTen y.wmode = 0) →
        let root := barrRoot all x.2.1 (s.recOf m.gk).threads
        ∃ t, exec x.1 s = .next t ∧ t.cur = none ∧
          t.team? w.gk (w.lane 0).team.toNat = some { m with arrivals := [] } ∧
          (∀ q, Memory.read t.mem q = Memory.read s.mem q) ∧
          ∀ r ∈ all, ∃ y y', s.warp? r.w = some y ∧ t.warp? r.w = some y' ∧ y'.sregs = y.sregs ∧
            (∀ f ∈ y'.front, f.park ≠ .bar) ∧
            y'.lane r.lane = if x.2.2 then ((y.lane r.lane).orFlags root.2).setVP y.alloc r.dst (root.1.getD 0)
              else ((y.lane r.lane).orFlags root.2).setV y.alloc r.dst ((root.1.getD 0).extractLsb' 0 32)

/-- In a calm package, for a warp not in handler mode whose stores have performed and each of whose lanes brings the same mask,
which has its own bit and none at or above wwid and agrees with an instance in progress, barm answers a next state: while a
named lane lives and has not arrived the lanes are parked in the instance; once none does, the instance is over and every lane
parked in it becomes selectable at the warp's next run. -/
def Obligations.MaskBarrierParksAndReleases : Prop :=
  ∀ (a : VReg) (b : Bool) (s : State) (w : Warp) (e : FEntry) (m : Mask), Runs s w e → State.Calm s → Warp.performed w →
    OperandsReady w e [(a, 2)] [] → w.handler = false →
    (∀ L, e.mask.getLsbD L = true → (w.lane L).vp w.alloc a = m ∧ m.getLsbD L = true) → m &&& ~~~fullMask w.width = 0 →
    ∀ old : Mask, (w.barm = none ∧ old = 0) ∨ w.barm = some { ref := some m, arrived := old } →
    let awaited (L : Nat) : Prop := m.getLsbD L = true ∧ (old ||| e.mask).getLsbD L = false ∧ (w.lane L).life = .live
    ((∃ L, awaited L) → ∃ t w', exec (.barm a b) s = .next t ∧ Parks s w e .barm (dropLanes w.front e.mask) t w' ∧
      w'.barm = some { ref := some m, arrived := old ||| e.mask }) ∧
    ((∀ L, ¬ awaited L) → ∃ t w', exec (.barm a b) s = .next t ∧
      Parks s w e .nextRun (unpark (dropLanes w.front e.mask) (fun f => f.park == .barm)) t w' ∧ w'.barm = none)

/-- For a warp that runs plainly with its accesses performed, where no other warp speculates or is in a transaction, fence.c,
fence.t and fence.d answer a next state in which exactly the posted stores of the entry's lanes are visible to the agents of the
scope and have the fence noted, and no byte of memory changes; fence.k and fence.x, where posted stores have numbers of their
own and their lines can be written with nobody before them in the queue (R410), answer one in which no posted store of those
lanes is left, what is left is as it was, every byte outside every posted store reads as before, and the last posted store over
any byte of those lanes' stores has given it its value. -/
def Obligations.FencesPublish : Prop :=
  (∀ b : Bool, ∀ x ∈ ([(Instr.fenceC b, 0), (.fenceT b, 1), (.fenceD b, 2)] : List (Instr × Nat)),
      ∀ s w e, Runs s w e → Warp.performed w → (∀ x ∈ s.warps, x.window = none ∧ x.anyTx = false) →
        ∃ t w', exec x.1 s = .next t ∧ Accessed s w e t w' ∧ (∀ L, w'.lane L = w.lane L) ∧ t.mem = s.mem ∧
          t.posted = s.posted.map (fun p => if p.w = w.uid ∧ e.mask.getLsbD p.lane = true ∧ p.lane < 64 then
            { p with scopes := setPut p.scopes x.2, fences := setPut p.fences x.2 } else p)) ∧
    (∀ b : Bool, ∀ i ∈ [Instr.fenceK b, .fenceX b],
      ∀ s w e, Runs s w e → Warp.performed w → (∀ x ∈ s.warps, x.window = none ∧ x.anyTx = false) →
        s.posted.Pairwise (fun p q => p.uid ≠ q.uid) → (∀ p ∈ s.posted, s.writeShut (p.pa / 128) = false ∧ s.behind p = false) →
        let mine (p : Posted) : Prop := p.w = w.uid ∧ e.mask.getLsbD p.lane = true ∧ p.lane < 64
        ∃ t w', exec i s = .next t ∧ Accessed s w e t w' ∧ (∀ L, w'.lane L = w.lane L) ∧
          t.posted.Sublist s.posted ∧ (∀ p ∈ t.posted, ¬ mine p) ∧
          (∀ q, (∀ p ∈ s.posted, q < p.pa ∨ p.pa + p.bytes.length ≤ q) → Memory.read t.mem q = Memory.read s.mem q) ∧
          ∀ l p r, s.posted = l ++ p :: r → mine p → ∀ k, k < p.bytes.length →
            (∀ z ∈ r, p.pa + k < z.pa ∨ z.pa + z.bytes.length ≤ p.pa + k) →
            Memory.read t.mem (p.pa + k) = p.bytes.getD k 0)

/-- In a calm package, for a warp that runs plainly with its stores performed and no lane due for serial mode, txb answers a
next state in which each lane of the entry is ACTIVE with empty sets, its address and the recorded registers, predicates, index
registers, flags, return stack, window and priority, and nothing else of it changes; a lane due for serial mode takes the free
permit, or waits at the instruction in the permit's queue; txs sets D to whether STATE is ACTIVE or COMMITTED. -/
def Obligations.TransactionsOpenAndReport : Prop :=
  (∀ (b : Bool) (s : State) (w : Warp) (e : FEntry), Runs s w e → State.Calm s → Warp.performed w →
      (∀ L, e.mask.getLsbD L = true → ¬((w.lane L).tx.addr = e.pc ∧ 3 ≤ (w.lane L).tx.contention)) →
      Completes (.txb b) 4 s w e (fun w' => w'.sregs = w.sregs ∧
        (∀ L, e.mask.getLsbD L = false → w'.lane L = w.lane L) ∧
        ∀ L, e.mask.getLsbD L = true →
          let l := w.lane L
          let x := w'.lane L
          { x with tx := l.tx } = l ∧ x.tx.state = .active ∧ x.tx.addr = e.pc ∧ x.tx.rset = [] ∧ x.tx.wset = [] ∧
          x.tx.rlines = [] ∧ x.tx.wlines = [] ∧ x.tx.serial = false ∧
          x.tx.aborts = (if l.tx.addr = e.pc then l.tx.aborts else 0) ∧
          x.tx.save = some { regs := l.regs, preds := l.preds, xr := l.xr, fflags := l.fflags, stack := l.stack, win := l.win,
                             winPoison := l.winPoison, badRegs := l.badRegs, softRegs := l.softRegs,
                             stackPoison := l.stackPoison, pri := e.pri })) ∧
    (∀ (b : Bool) (s : State) (w : Warp) (e : FEntry) (L : Nat), Runs s w e → State.Calm s → Warp.performed w →
      e.mask = laneBit L → (w.lane L).tx.addr = e.pc → 3 ≤ (w.lane L).tx.contention → s.lu.permitQ = [] →
      (s.lu.permit = none → ∃ t w', exec (.txb b) s = .next t ∧ Ends s w e 4 t w' ∧ t.lu.permit = some (w.uid, L) ∧
        (w'.lane L).tx.state = .active ∧ (w'.lane L).tx.serial = true ∧ (w'.lane L).tx.sl = true) ∧
      (∀ o, s.lu.permit = some o → o ≠ (w.uid, L) → ∃ t w', exec (.txb b) s = .next t ∧ t.warp? w.uid = some w' ∧
        t.lu = { s.lu with permitQ := [(w.uid, L)] } ∧ w'.lane L = w.lane L ∧
        { FEntry.at e.pc e.pri e.mask with park := .serial } ∈ w'.front)) ∧
    ∀ (d : PReg) (b : Bool) (s : State) (w : Warp) (e : FEntry), Issues s w e → w.txLog < 16 →
      s.logUsed w.die w.core + w.txLog < 128 →
      (∀ L, e.mask.getLsbD L = true → (w.lane L).tx.state = .active → (w.lane L).tx.serial = true → (w.lane L).tx.insns < 32) →
      ∃ t w', exec (.txs d b) s = .next t ∧ t.warp? w.uid = some w' ∧
        w'.front = addLanes (dropLanes w.front e.mask) (e.pc + 4) e.pri e.mask ∧ w'.sregs = w.sregs ∧ t.mem = s.mem ∧
        (∀ L, e.mask.getLsbD L = false → w'.lane L = w.lane L) ∧
        ∀ L, e.mask.getLsbD L = true →
          let l := (w.lane L).setPred d (decide ((w.lane L).tx.state = .active ∨ (w.lane L).tx.state = .committed))
          { w'.lane L with tx := l.tx } = l ∧ (w'.lane L).tx.state = (w.lane L).tx.state

/-- In a calm package with one lane ACTIVE in the warp, not in serial mode, within its log and with its stores performed, txe
answers a next state: where every byte of the read set still has the value read, the lane is COMMITTED, memory has the
transaction's last store to each byte it wrote and every other byte as before; where one has changed, the lane is ABORTED with
CONFLICT, resumes after its txb with what the txb recorded, and no byte of memory has changed. txa does the latter with EXPLICIT
and the low 8 bits of A. -/
def Obligations.TransactionsCommitAndAbort : Prop :=
  ∀ (a : VReg) (b : Bool) (s : State) (w : Warp) (e : FEntry) (L : Nat) (v : LaneSave), Issues s w e → State.Calm s →
    Warp.performed w → e.mask.getLsbD L = true →
    (∀ M, M < w.lanes.length → ((w.lane M).tx.state = .active ↔ M = L)) → (w.lane L).tx.save = some v →
    (w.lane L).tx.serial = false → w.handler = false → w.held = [] → w.txLog ≤ 16 → s.logUsed w.die w.core + w.txLog ≤ 128 →
    let l := w.lane L
    let others (w' : Warp) : Prop := w'.sregs = w.sregs ∧ ∀ M, M ≠ L → w'.lane M = w.lane M
    let aborted (t : State) (w' : Warp) (cause : Nat) (code : Byte) : Prop := t.warp? w.uid = some w' ∧ others w' ∧
      w'.at L (l.tx.addr + 4) v.pri ∧ (w'.lane L).tx.state = .aborted ∧ (w'.lane L).tx.cause = cause ∧
      (w'.lane L).tx.code = code ∧ (w'.lane L).tx.aborts = min 7 (l.tx.aborts + 1) ∧ (w'.lane L).regs = v.regs ∧
      (w'.lane L).preds = v.preds ∧ (w'.lane L).xr = v.xr ∧ (w'.lane L).fflags = v.fflags ∧ (w'.lane L).stack = v.stack ∧
      (w'.lane L).win = v.win ∧ (∀ q, Memory.read t.mem q = Memory.read s.mem q)
    l.tx.aborts ≤ 7 →
    ((∀ c ∈ l.tx.rset, Memory.read s.mem c.1 = c.2) → ∃ t w', exec (.txe b) s = .next t ∧ t.warp? w.uid = some w' ∧ others w' ∧
      w'.front = addLanes (dropLanes w.front e.mask) (e.pc + 4) e.pri e.mask ∧
      (w'.lane L).tx.state = .committed ∧ (w'.lane L).tx.aborts = 0 ∧ { w'.lane L with tx := l.tx } = l ∧
      ∀ q, Memory.read t.mem q = (l.tx.wset.foldl (fun o c => if c.1 = q then some c.2 else o) none).getD (Memory.read s.mem q)) ∧
    ((∃ c ∈ l.tx.rset, Memory.read s.mem c.1 ≠ c.2) → ∃ t w', exec (.txe b) s = .next t ∧ aborted t w' 1 l.tx.code) ∧
    (OperandsReady w e [(a, 1)] [] → ∃ t w', exec (.txa a b) s = .next t ∧
      aborted t w' 6 ((l.v w.alloc a).extractLsb' 0 8))

/-- In a calm package, for a warp whose stores have performed, whose grid is not killed and fills the entry, and each of whose
lanes names vz or reaches a join counter free of poison, spawn answers a next state in which each lane of the entry has taken an
ordinal and lastsid is the identity derived by R182, and D is pending (R47). Where the Cooper's store has room for every record,
the Cooper holds exactly those records more, each join counter has grown by the number of lanes that name it, D is set and every
other byte of memory is as before; where its store and the grid's ring are full, D is cleared and nothing else has changed. -/
def Obligations.SpawnsOfferRecords : Prop :=
  ∀ (n : BitVec 3) (d : PReg) (a c : VReg) (b : Bool) (s : State) (w : Warp) (e : FEntry) (pa : Nat → Nat),
    Runs s w e → State.Calm s → Warp.performed w → OperandsReady w e [(a, 8), (c, 2)] [] →
    (s.recOf w.gk).spawnEntry n.toNat ≠ 0 → 96 * w.die + w.core < s.cores.length →
    (∀ g, s.grid? w.gk = some g → g.killed = false) →
    (c ≠ .z → ∀ L, e.mask.getLsbD L = true → Reaches s w .atomic ((w.lane L).vp w.alloc c).toNat 8 (pa L) ∧ pa L % 8 = 0 ∧
      touchesPoison s.poison (pa L) 8 = false) →
    let key := s.rngKey w.gk
    let child (l : Lane) : DWord :=
      let x := if l.sid = 0 then chacha8 (key.set 1 (~~~(key.getD 1 0))) l.ordinal l.gtid
        else chacha8 ((key.set 1 (~~~(key.getD 1 0))).set 2 (~~~(key.getD 2 0))) l.ordinal l.sid
      if x.getD 1 0 ++ x.getD 0 0 ≠ (0 : DWord) then x.getD 1 0 ++ x.getD 0 0
      else if x.getD 3 0 ++ x.getD 2 0 ≠ (0 : DWord) then x.getD 3 0 ++ x.getD 2 0 else 1
    let rcd (L : Nat) : SpawnRec :=
      let l := w.lane L
      { gk := w.gk, entry := n.toNat, team := l.team.toNat, sid := child l, root := l.gtid,
        join := if c = .z then none else some (l.vp w.alloc c), payload := (List.range 8).map (fun i => l.rd w.alloc a 8 i) }
    let pends : List Nat := if d.val = 7 then [] else [0xC0 + d.val]
    let kept (c : Cooper) : List SpawnRec := c.store ++ c.parts.flatMap Partial.held
    let here := (s.core w.die w.core).cooper
    let lane (v : Bool) (L : Nat) : Lane := if e.mask.getLsbD L then
      ({ w.lane L with ordinal := (w.lane L).ordinal + 1, lastsid := child (w.lane L) }).setPred d v else w.lane L
    (here.parts.Pairwise (fun p q => ¬(p.gk = q.gk ∧ p.entry = q.entry)) →
      (kept here).length + (lanesOf e.mask).length ≤ 1024 →
      ∃ t w', exec (.spawn n d a c b) s = .next t ∧ Accessed s w e t w' [] pends ∧ (∀ L, w'.lane L = lane true L) ∧
        (∀ r, (kept (t.core w.die w.core).cooper).count r = (kept here).count r + ((lanesOf e.mask).map rcd).count r) ∧
        (c = .z → ∀ q, Memory.read t.mem q = Memory.read s.mem q) ∧
        (c ≠ .z → (∀ L, e.mask.getLsbD L = true → Memory.value t.mem (pa L) 8 =
            (Memory.value s.mem (pa L) 8 + (lanesOf e.mask).countP (fun M => pa M == pa L)) % 2 ^ 64) ∧
          ∀ q, (∀ L, e.mask.getLsbD L = true → q < pa L ∨ pa L + 8 ≤ q) → Memory.read t.mem q = Memory.read s.mem q)) ∧
    (1024 ≤ (kept here).length → s.ringRoom w.die w.gk = false →
      Completes (.spawn n d a c b) 4 s w e (fun w' => w'.sregs = w.sregs ∧ ∀ L, w'.lane L = lane false L) [] pends)

/-- In a calm package, for an original warp whose stores have performed and whose lowest active lane reaches a readable record
free of poison, launch answers a next state in which every lane but the leader's has D clear, and D is pending (R47). In the
leader's lane, below depth 10 and with room in the queue, pushes on their way to it counted (log entry 54), D is set and the
record is the last grid of its queue with the parent's address space, its parent's number, one depth more and the lower class;
at depth 10 or with the queue full D is clear and no grid is queued. -/
def Obligations.LaunchesQueueAGrid : Prop :=
  ∀ (d : PReg) (a : VReg) (b : Bool) (s : State) (w : Warp) (e : FEntry) (pa : Nat), Runs s w e → State.Calm s →
    Warp.performed w → OperandsReady w e [(a, 2)] [] → w.gathered = false →
    let L0 := lowestLane e.mask
    let p := s.recOf w.gk
    let r := LaunchRec.ofBytes (fun o => Memory.read s.mem (pa + o))
    let room : Prop := (s.lu.queues.getD r.queue Queue.init).fifo.length +
      (s.lu.pushes.filter (fun x => x.1 == r.queue)).length < 1024
    let pends : List Nat := if d.val = 7 then [] else [0xC0 + d.val]
    (w.index = 0 → Reaches s w .read ((w.lane L0).vp w.alloc a).toNat 256 pa ∧ touchesPoison s.poison pa 256 = false) →
    let off (w' : Warp) : Prop := ∀ L, L ≠ L0 → w'.lane L = if e.mask.getLsbD L then (w.lane L).setPred d false else w.lane L
    (w.index = 0 → p.depth < 10 → room → ∃ t w' g, exec (.launch d a b) s = .next t ∧ Ends s w e 4 t w' [] pends ∧ off w' ∧
      w'.lane L0 = (w.lane L0).setPred d true ∧ (∀ q, Memory.read t.mem q = Memory.read s.mem q) ∧ t.teams = s.teams ∧
      t.grids = s.grids ++ [g] ∧ t.lu = { s.lu with queues := s.lu.queues.modify r.queue (fun x =>
        { x with fifo := x.fifo ++ [s.nextUid] }) } ∧
      g.key = s.nextUid ∧ g.st = .queued ∧ g.byRuntime = false ∧ g.addr = (w.lane L0).vp w.alloc a ∧ g.queue = r.queue ∧
      g.parentKey = some w.gk ∧ g.nextTeam = 0 ∧ g.ended = 0 ∧ g.finished = false ∧ g.rcd.asidN = p.asidN ∧
      g.rcd.parent = p.grid ∧ g.rcd.depth = p.depth + 1 ∧ g.rcd.cls = min p.cls r.cls ∧ g.rcd.queue = r.queue ∧
      { g.rcd with asid := r.asid, parent := r.parent, sched := r.sched } = r) ∧
    ((w.index ≠ 0 ∨ p.depth = 10 ∨ (p.depth < 10 ∧ ¬ room)) → ∃ t w', exec (.launch d a b) s = .next t ∧
      Accessed s w e t w' [] pends ∧ off w' ∧ w'.lane L0 = (w.lane L0).setPred d false ∧ ∀ q, Memory.read t.mem q = Memory.read s.mem q)

/-- In a calm package, for a warp whose stores have performed and each of whose lanes reaches its readable word free of poison,
joinw and waitw answer a next state in which the run has ended, every lane goes on at the next instruction and the warp waits
for its lanes' words (joinw also makes due the partial warps with a record of a team of those lanes); joint sets D of each lane
of the entry to whether its 64-bit counter is 0, and D is pending (R47). -/
def Obligations.JoinsAndWaitsPark : Prop :=
  ∀ (d : PReg) (a c : VReg) (b : Bool) (s : State) (w : Warp) (e : FEntry) (pa : Nat → Nat), Runs s w e → State.Calm s →
    Warp.performed w → OperandsReady w e [(a, 2)] [] →
    let at8 (n : Nat) : Prop := ∀ L, e.mask.getLsbD L = true → Reaches s w .read ((w.lane L).vp w.alloc a).toNat n (pa L) ∧
      touchesPoison s.poison (pa L) n = false
    let parks (i : Instr) (v : Warp) (P : State → Prop) : Prop := ∃ t w', exec i s = .next t ∧ t.cur = none ∧
      Ends s v e 4 t w' ∧ w'.sregs = w.sregs ∧ (∀ L, w'.lane L = w.lane L) ∧
      (∀ q, Memory.read t.mem q = Memory.read s.mem q) ∧ P t
    (at8 8 → parks (.joinw a b) { w with
      wait := some (.joinw ((lanesOf e.mask).map (fun L => (L, (w.lane L).vp w.alloc a))) (s.die w.die).cycles), noYield := false }
      (fun t => w.die < 4 → w.core < 96 → ∀ k < 96, ∀ p ∈ (t.core w.die k).cooper.parts, p.gk = w.gk →
        (∃ r ∈ p.held, ∃ L, e.mask.getLsbD L = true ∧ r.team = (w.lane L).team.toNat) → p.due.isSome = true)) ∧
    (at8 4 → OperandsReady w e [(c, 1)] [] → parks (.waitw a c b) { w with
      wait := some (.waitw ((lanesOf e.mask).map (fun L => (L, (w.lane L).vp w.alloc a, (w.lane L).v w.alloc c)))) } (fun _ => True)) ∧
    (at8 8 → ∃ t w', exec (.joint d a b) s = .next t ∧
      Accessed s w e t w' [] (if d.val = 7 then [] else [0xC0 + d.val]) ∧
      (∀ q, Memory.read t.mem q = Memory.read s.mem q) ∧ ∀ L, w'.lane L = if e.mask.getLsbD L then
        (w.lane L).setPred d (decide (Memory.value s.mem (pa L) 8 = 0)) else w.lane L)

/-- In a calm package, for a warp whose stores have performed, each bcp and mdrain whose control block is well-formed, aligned
and inside its team's memories, whose tag is not BUSY and whose engine (and, for mdrain, matrix queue) has room (the matrix
functions with matrix ownership, mdrain on the leader core) answers a next state in which the tag is BUSY, the core's engine has
one copy more with the block and the tag, nothing done yet, and no lane, scalar register or byte of memory has changed. -/
def Obligations.CopiesStart : Prop :=
  ∀ (a : SReg) (tag : Tag) (b : Bool),
    ∀ x ∈ ([(Instr.bcpG2a a tag b, (CopyFn.g2a, 0)), (.bcpG2ax a tag b, (.g2ax, 1)), (.bcpG2rx a tag b, (.g2rx, 1)),
        (.bcpA2g a tag b, (.a2g, 0)), (.bcpQ2g a tag b, (.q2g, 1)), (.bcpG2g a tag b, (.g2g, 0)), (.bcpRem a tag b, (.rem, 0)),
        (.bcpScld a tag b, (.scld, 1)), (.mdrain a tag b, (.drain, 2)), (.mdrainAddF32 a tag b, (.drainAddF32, 2)),
        (.mdrainAddI32 a tag b, (.drainAddI32, 2)), (.mdrainAddI64 a tag b, (.drainAddI64, 2))]
        : List (Instr × (CopyFn × Nat))),
      let fn := x.2.1
      ∀ s w e m, Runs s w e → State.Calm s → Warp.performed w → 96 * w.die + w.core < s.cores.length →
        s.team? w.gk (w.lane (if w.gathered then lowestLane e.mask else 0)).team.toNat = some m →
        (1 ≤ x.2.2 → OwnsMatrix s w m) → (x.2.2 = 2 → m.core = w.core ∧ (s.core w.die w.core).queueUsed < 8) →
        let cb := (List.range 4).map (fun i => w.sv (a.val + i))
        cbIllegal fn cb = false → cbMisaligned fn cb = none → m.cbOutside fn cb = false →
        w.tags.getD tag.val .free ≠ .busy → (s.core w.die w.core).copies.length < 64 →
        ∃ t w' c, exec x.1 s = .next t ∧ Ends s { w with tags := w.tags.set tag.val .busy } e 4 t w' ∧ w'.sregs = w.sregs ∧
          (∀ L, w'.lane L = w.lane L) ∧ (∀ q, Memory.read t.mem q = Memory.read s.mem q) ∧
          (t.core w.die w.core).copies = (s.core w.die w.core).copies ++ [c] ∧ c.uid = s.nextUid ∧ c.fn = fn ∧ c.cb = cb ∧
          c.tag = tag.val ∧ c.w = w.uid ∧ c.gk = w.gk ∧ c.team = m.idx ∧ c.pending = false ∧ c.taken = 0 ∧ c.bytes = 0 ∧ c.out = [] ∧ c.owned = [] ∧ c.failed = false ∧
          (fn ≠ .g2a → fn ≠ .g2ax → c.refused = false)

/-- For a warp that runs plainly, twait and twany end the run and leave the warp waiting unless the tags of the mask are ready
(none BUSY, or for twany some DONE); tfirst gives the lowest DONE tag of the mask, or all ones; tstat gives the status and byte
count of a tag that is not BUSY, zeros for a FREE one, in a pair that is pending (R47); tclr frees exactly the DONE tags of the
mask. Nothing else changes. -/
def Obligations.TagInstructionsFollowTheTags : Prop :=
  ∀ (d a : SReg) (tag : Tag) (b : Bool) (s : State) (w : Warp) (e : FEntry), Runs s w e → w.tags.length = 64 →
    let m : Mask := w.sv (a.val + 1) ++ w.sv a.val
    let st (i : Nat) : TagSt := w.tags.getD i .free
    let isDone (i : Nat) : Prop := ∃ x y z, st i = .done x y z
    let waits (i : Instr) (ready : Prop) (x : Wait) : Prop := ∃ t w', exec i s = .next t ∧ t.cur = none ∧
      t.quiet = s.quiet ∧ w'.sregs = w.sregs ∧ (∀ L, w'.lane L = w.lane L) ∧
      (ready → Ends s w e 4 t w') ∧ (¬ ready → Ends s { w with wait := some x } e 4 t w')
    waits (.twait a b) (∀ i, m.getLsbD i = true → st i ≠ .busy) (.twait m) ∧
    waits (.twany a b) ((∀ i, m.getLsbD i = true → st i ≠ .busy) ∨ ∃ i, m.getLsbD i = true ∧ isDone i) (.twany m) ∧
    Completes (.tfirst d a b) 4 s w e (fun w' => (∀ L, w'.lane L = w.lane L) ∧
      (∀ i, m.getLsbD i = true → isDone i → (∀ j < i, ¬(m.getLsbD j = true ∧ isDone j)) →
        w'.sregs = w.sregs.set d.val (BitVec.ofNat 32 i)) ∧
      ((∀ i, m.getLsbD i = true → ¬ isDone i) → w'.sregs = w.sregs.set d.val 0xFFFFFFFF)) ∧
    (st tag.val ≠ .busy → Completes (.tstat d tag b) 4 s w e (fun w' => (∀ L, w'.lane L = w.lane L) ∧
      (st tag.val = .free → w'.sregs = (w.sregs.set d.val 0).set (d.val + 1) 0) ∧
      ∀ x y z, st tag.val = .done x y z → w'.sregs = (w.sregs.set d.val (BitVec.ofNat 32 x)).set (d.val + 1) y) [] [0x80 + d.val, 0x81 + d.val]) ∧
    ∃ t w', exec (.tclr a b) s = .next t ∧ t.quiet = s.quiet ∧ w'.sregs = w.sregs ∧ (∀ L, w'.lane L = w.lane L) ∧
      Ends s { w with tags := w'.tags } e 4 t w' ∧
      ∀ i < 64, (m.getLsbD i = true → isDone i → w'.tags.getD i .busy = .free) ∧
        (¬(m.getLsbD i = true ∧ isDone i) → w'.tags.getD i .busy = st i)

/-- In a calm package, for a warp with matrix ownership, not in handler mode, whose stores have performed and whose running team
has no instance at work, mmode.c, mmode.s and mcal answer a next state in which the lanes of the entry are parked in the
instance. While another original warp lives and has not arrived the instance goes on gathering; once all have arrived by one
function, mmode.c and mmode.s begin to wait where some macro has to change and otherwise are over at once with the entries
selectable at the next run, and mcal begins where no macro computes. -/
def Obligations.ModeInstructionsArrive : Prop :=
  ∀ b : Bool, ∀ x ∈ ([(Instr.mmodeC b, ModeFn.c), (.mmodeS b, .s), (.mcal b, .cal)] : List (Instr × ModeFn)),
    ∀ s w e m, Runs s w e → State.Calm s → Warp.performed w → w.handler = false → w.checkBarm = w → OwnsMatrix s w m →
      m.st = .running → s.barDue m = false →
      ∀ old, (m.mode = .idle ∧ old = []) ∨ (m.mode = .gathering old ∧ ∀ y ∈ old, y.2.1 = x.2) →
      let all := old ++ [(w.uid, x.2, e.mask, e.pc, e.pri, s.insn)]
      let absent (u : Warp) : Prop := u ∈ w :: s.warps ∧ u.gk = m.gk ∧ u.gathered = false ∧ (u.lane 0).team.toNat = m.idx ∧
        (∃ l ∈ u.lanes, l.life = .live) ∧ ∀ y ∈ all, y.1 ≠ u.uid
      let some? (r : Resid) : Prop := ∃ y ∈ s.macros m, y.2.2.mode = r
      let mode (md : ModeSt) : Prop := ∃ t w', exec x.1 s = .next t ∧ Parks s w e .mode (dropLanes w.front e.mask) t w' ∧
        t.team? w.gk (w.lane 0).team.toNat = some { m with mode := md }
      let ends : Prop := ∃ t w', exec x.1 s = .next t ∧
        Parks s w e .nextRun (unpark (dropLanes w.front e.mask) (fun f => f.park == .mode)) t w' ∧
        t.team? w.gk (w.lane 0).team.toNat = some { m with mode := .idle }
      ((∃ u, absent u) → mode (.gathering all)) ∧
      ((∀ u, ¬ absent u) →
        (x.2 = .c → some? .storage → mode (.cWait (s.arrayCopies m))) ∧ (x.2 = .c → ¬ some? .storage → ends) ∧
        (x.2 = .s → some? .compute → mode .sWait) ∧ (x.2 = .s → ¬ some? .compute → ends) ∧
        (x.2 = .cal → ¬ some? .compute → mode .cal))

/-- For a warp with matrix ownership on the leader core, mmul.ex and mmul.ap1, ap2 and ap4, well-formed, inside their memories
and naming only macros in compute residence, with a tag that is not BUSY and room in the queue of 8, answer a next state in
which the tag is BUSY, the queue has one operation more with the fields of the two groups, and no lane, scalar register or byte
of memory has changed. For a warp with matrix ownership on the leader core, with the queue neither full nor holding an earlier
operation on the rows, mzero with a well-formed block inside the accumulator answers a next state in which exactly its rectangle
is 0; mrd gives each lane of the entry its element where none is poisoned, in a register that is pending (R47); mwr stores D of
each lane in its element; the other elements, lanes and every byte of memory are as before. That they act at issue is the
model's reading (log entry 24). -/
def Obligations.MatrixOperationsOnTheAccumulator : Prop :=
  (∀ (acc : Bool) (a c : SReg) (b : Bool),
    ∀ x ∈ ([(Instr.mmulEx acc a c b, 0), (.mmulAp1 acc a c b, 1), (.mmulAp2 acc a c b, 2), (.mmulAp4 acc a c b, 4)]
        : List (Instr × Nat)),
      ∀ s w e m, Runs s w e → OwnsMatrix s w m → m.core = w.core → 96 * w.die + w.core < s.cores.length →
        let ga := (List.range 4).map (fun i => w.sv (a.val + i))
        let gc := (List.range 4).map (fun i => w.sv (c.val + i))
        let f (g : List Word) (i hi lo : Nat) : Nat := ((g.getD i 0).toNat / 2 ^ lo) % 2 ^ (hi + 1 - lo)
        let o : MOp := { uid := s.nextUid, w := w.uid, tag := f ga 3 5 0, gk := w.gk, team := (w.lane 0).team.toNat, rep := x.2,
                         acc := acc, n0 := f ga 0 15 6, seg0 := f ga 0 5 0, rbase := f ga 1 12 9, ma0 := f ga 1 8 0,
                         mc0 := f ga 2 8 0, m := f gc 0 8 0 + 1, kb := f gc 1 5 0 + 1, n := f gc 2 9 0 + 1, bfmt := f gc 3 7 4,
                         afmt := f gc 3 3 0, steps := 0, retries := 0, fails := [], pois := false }
        mmulIllegal o ga gc = false → o.outside m = false →
        (∀ y ∈ m.tileMacros o.seg0 o.kb o.n0 o.n (fmtWidth o.bfmt),
          ((s.core m.die y.1).units.getD y.2 CimUnit.init).mode = .compute) →
        w.tags.getD o.tag .free ≠ .busy → (s.core w.die w.core).queueUsed < 8 →
        ∃ t w', exec x.1 s = .next t ∧ Ends s { w with tags := w.tags.set o.tag .busy } e 4 t w' ∧ w'.sregs = w.sregs ∧
          (∀ L, w'.lane L = w.lane L) ∧ t.mem = s.mem ∧
          (t.core w.die w.core).mq = (s.core w.die w.core).mq ++ [o]) ∧
  (∀ (d : VReg) (a : SReg) (b : Bool) (s : State) (w : Warp) (e : FEntry) (m : Team), Runs s w e → OwnsMatrix s w m →
    m.core = w.core → m.die = w.die → 96 * w.die + w.core + 1 < s.cores.length → (s.core w.die w.core).queueUsed < 8 →
    let free (r n : Nat) (wr : Bool) : Prop := s.blocked s.nextUid (m.accZones r n wr) = false
    let cb := (List.range 4).map (fun i => w.sv (a.val + i))
    let r := (w.sv a.val).toNat
    let c (L : Nat) : Nat := (w.sv (a.val + 1)).toNat + L
    (cbF cb 2 31 19 = 0 → cbF cb 3 31 19 = 0 → m.cbOutside .drain cb = false → free (cbM0 cb) (cbRows .drain cb) true →
      ∃ t w', exec (.mzero a b) s = .next t ∧ Ends s w e 4 t w' ∧ w'.sregs = w.sregs ∧ (∀ L, w'.lane L = w.lane L) ∧
        t.mem = s.mem ∧ ∀ i j, j < m.accCols → t.accVal m i j =
          if cbF cb 2 8 0 ≤ i ∧ i < cbF cb 2 8 0 + (cbF cb 3 8 0 + 1) ∧ cbF cb 2 18 9 ≤ j ∧
            j < cbF cb 2 18 9 + (cbF cb 3 18 9 + 1) then 0 else s.accVal m i j) ∧
    (r < 384 → (∀ L, e.mask.getLsbD L = true → c L < m.accCols) →
      (OperandsReady w e [] [(d, 1)] → (∀ L, e.mask.getLsbD L = true → s.accBad m r (c L) = false) → free r 1 false →
        Completes (.mrd d a b) 4 s w e (fun w' => w'.sregs = w.sregs ∧ ∀ L, w'.lane L = if e.mask.getLsbD L then
          (w.lane L).setV w.alloc d (BitVec.ofNat 32 (s.accVal m r (c L))) else w.lane L) [(d, 1)]) ∧
      (OperandsReady w e [(d, 1)] [] → free r 1 true →
        ∃ t w', exec (.mwr d a b) s = .next t ∧ Ends s w e 4 t w' ∧ w'.sregs = w.sregs ∧ (∀ L, w'.lane L = w.lane L) ∧
          t.mem = s.mem ∧ (∀ L, e.mask.getLsbD L = true → t.accVal m r (c L) = ((w.lane L).v w.alloc d).toNat) ∧
          ∀ i j, j < m.accCols → (i ≠ r ∨ ∀ L, e.mask.getLsbD L = true → j ≠ c L) → t.accVal m i j = s.accVal m i j)))

/-- In a calm package, for a warp outside handler mode whose stores have performed and whose grid has a handler and a reachable
trap area, trap #n, brk #n and the ILLEGAL of an undecodable word answer a next state in which the trap record stands in memory
as R267 lays it out with the cause of R263 and n as detail, tcause, tepc, tmask and trec are set, tscratch, every lane and every
scalar register keep their values, every other entry is held, and the trapping lanes are the one entry, at the handler with
priority 7; no other byte of memory and no other warp has changed. In a calm package, for a warp outside handler mode whose
stores have performed and whose grid has a handler and a reachable trap area, srd and srds of a privileged register, swr
tscratch and eret take PRIV with the register's number or 0x80 as detail, and swr of a register without write access, swr wmode
of a reserved or unassigned value and srds of a register of lane scope take ILLEGAL. -/
def Obligations.TrapsAreTaken : Prop :=
  (∀ (s : State) (w : Warp) (e : FEntry) (pa : Nat), Runs s w e → State.Calm s → Warp.performed w → Handles s w pa →
    (∀ (n : BitVec 7) (b : Bool), ∃ t w', exec (.trap n b) s = .next t ∧ Trapped s w e 0x0F n.toNat 0 s.insn 4 pa t w') ∧
    (∀ (n : BitVec 7) (b : Bool), ∃ t w', exec (.brk n b) s = .next t ∧ Trapped s w e 0x0E n.toNat 0 s.insn 4 pa t w') ∧
    ∀ insn : Word, ∃ t w', exec (.illegalInstruction insn) s = .next t ∧
      Trapped s w e 0x01 0 0 insn (if insn.getLsbD 0 then 4 else 2) pa t w') ∧
  (∀ (s : State) (w : Warp) (e : FEntry) (pa : Nat), Runs s w e → State.Calm s → Warp.performed w → Handles s w pa →
    let traps (i : Instr) (cause detail : Nat) : Prop :=
      ∃ t w', exec i s = .next t ∧ Trapped s w e cause detail 0 s.insn 4 pa t w'
    ∀ (d : VReg) (a c : SReg) (b : Bool), OperandsReady w e [] [(d, 2)] →
      (∀ r ∈ [(SpReg.tcause, 0x40), (.tepc, 0x41), (.tmask, 0x42), (.trec, 0x43), (.tscratch, 0x44), (.asid, 0x45)],
        traps (.srd d r.1 b) 0x07 r.2 ∧ traps (.srds c r.1 b) 0x07 r.2) ∧
      traps (.swr (.tscratch a) b) 0x07 0x44 ∧ (∃ t w', exec (.eret b) s = .next t ∧
        Trapped s w e 0x07 0x80 0 s.insn 4 pa t w') ∧
      (∀ r ra, traps (.swr (.readOnly r ra) b) 0x01 0) ∧
      ((2 ^ 10 ≤ (w.sv a.val).toNat ∨ 4 < (w.sv a.val).toNat % 8) → traps (.swr (.wmode a) b) 0x01 0) ∧
      ∀ r ∈ [SpReg.lane, .team, .tid, .gtid, .sid, .lastsid, .fflags, .txst, .rsp, .tflags], traps (.srds c r b) 0x01 0)

/-- In a calm package, for a warp in handler mode whose stores have performed and whose trap record is readable, free of poison
and holds an even RESUME below 2^55, eret answers a next state in which handler mode has ended, the held entries are the
frontier again and every lane of the handler has joined them at RESUME with the priority in bits 10 to 8 of word0; the run has
ended, and no lane, scalar register, privileged register or byte of memory has changed. -/
def Obligations.EretResumes : Prop :=
  ∀ (b : Bool) (s : State) (w : Warp) (e : FEntry) (pa : Nat), Runs s w e → State.Calm s → Warp.performed w →
    w.handler = true → Reaches s w .read w.trec.toNat 64 pa → touchesPoison s.poison pa 64 = false →
    let resume := BitVec.ofNat 64 (Memory.value s.mem (pa + 0x20) 8)
    let pri := BitVec.ofNat 3 (Memory.value s.mem pa 4 / 2 ^ 8 % 8)
    resume.toNat % 2 = 0 → resume.toNat < 2 ^ 55 →
    ∃ t w', exec (.eret b) s = .next t ∧ t.warp? w.uid = some w' ∧ t.cur = none ∧ w'.handler = false ∧ w'.held = [] ∧
      w'.front = addLanes (mergeFront w.held) resume pri (w.front.foldl (fun m f => m ||| f.mask) 0) ∧
      w'.sregs = w.sregs ∧ (∀ L, w'.lane L = w.lane L) ∧ w'.tcause = w.tcause ∧ w'.tepc = w.tepc ∧ w'.tmask = w.tmask ∧
      w'.trec = w.trec ∧ w'.tscratch = w.tscratch ∧ ∀ q, Memory.read t.mem q = Memory.read s.mem q

/-- For a warp that runs plainly, srd of each special register gives each lane of the entry that lane's value by the table of
R21, zero-extended, in a register or for a 64-bit one in a pair, and srds of each register of warp scope gives the scalar
destination its value, where the register is not privileged or the warp is in handler mode; the destination of clock, time and
txst is pending, no other number is (R47), and nothing else changes. -/
def Obligations.SpecialRegisterReads : Prop :=
  let x (v : Word) : DWord := v.zeroExtend 64
    let n (v : Nat) : DWord := BitVec.ofNat 64 v
    let lanes : List (SpReg × (Bool × (State → Warp → Nat → DWord))) :=
      [(.lane, (false, fun _ _ L => n L)), (.team, (false, fun _ w L => x (w.lane L).team)),
       (.tid, (false, fun _ w L => if w.gathered then 0xFFFFFFFF else x (w.index * BitVec.ofNat 32 w.width + BitVec.ofNat 32 L))),
       (.gtid, (true, fun _ w L => (w.lane L).gtid)), (.sid, (true, fun _ w L => (w.lane L).sid)),
       (.lastsid, (true, fun _ w L => (w.lane L).lastsid)),
       (.fflags, (false, fun _ w L => (w.lane L).fflags.zeroExtend 64)),
       (.txst, (false, fun _ w L => x (w.lane L).tx.reg)), (.rsp, (false, fun _ w L => n (w.lane L).stack.length)),
       (.tflags, (false, fun s w L => ((s.team? w.gk (w.lane L).team.toNat).map (fun m => m.tflags.zeroExtend 64)).getD 0))]
    let warps : List (SpReg × (Bool × (State → Warp → DWord))) :=
      [(.wwid, (false, fun _ w => n w.width)), (.warp, (false, fun _ w => x w.index)), (.core, (false, fun _ w => n w.core)),
       (.die, (false, fun _ w => n w.die)), (.dev, (false, fun s _ => n s.mgmt.dev)),
       (.grid, (false, fun s w => x (s.recOf w.gk).grid)), (.depth, (false, fun s w => n (s.recOf w.gk).depth)),
       (.clock, (true, fun s w => n ((s.die w.die).cycles - (s.core w.die w.core).powered))),
       (.time, (true, fun s _ => n (s.ticks / 18))),
       (.tagrdy, (true, fun _ w => maskOf ((List.range 64).filter (fun i =>
         match w.tags.getD i .free with | .done _ _ _ => true | _ => false)))),
       (.tagerr, (true, fun _ w => maskOf ((List.range 64).filter (fun i =>
         match w.tags.getD i .free with | .done c _ _ => c != 0 | _ => false)))),
       (.wmode, (false, fun _ w => x w.wmode))]
    let privileged : List (SpReg × (Bool × (State → Warp → DWord))) :=
      [(.tcause, (false, fun _ w => x w.tcause)), (.tepc, (true, fun _ w => w.tepc)), (.tmask, (true, fun _ w => w.tmask)),
       (.trec, (true, fun _ w => w.trec)), (.tscratch, (true, fun _ w => w.tscratch)),
       (.asid, (false, fun s w => n (s.recOf w.gk).asidN))]
    let put (w : Warp) (d : VReg) (wide : Bool) (v : DWord) (l : Lane) : Lane :=
      if wide then l.setVP w.alloc d v else l.setV w.alloc d (v.extractLsb' 0 32)
    let puts (w : Warp) (d : SReg) (wide : Bool) (v : DWord) : List Word :=
      if wide then (w.sregs.set d.val (v.extractLsb' 0 32)).set (d.val + 1) (v.extractLsb' 32 32)
      else w.sregs.set d.val (v.extractLsb' 0 32)
    let slow (r : SpReg) : Bool := [SpReg.clock, .time, .txst].contains r
    let one (d : VReg) (r : SpReg) (wide : Bool) : List (VReg × Nat) := if slow r then [(d, if wide then 2 else 1)] else []
    let both (d : SReg) (r : SpReg) : List Nat := if slow r then [0x80 + d.val, 0x81 + d.val] else []
    ∀ b : Bool,
    (∀ (d : VReg), ∀ r ∈ lanes, LaneRuleIf (.srd d r.1 b) 4 [] [(d, if r.2.1 then 2 else 1)] (fun _ _ _ _ => True)
      (fun s w _ L l => put w d r.2.1 (r.2.2 s w L) l) (one d r.1 r.2.1)) ∧
    (∀ (d : VReg), ∀ r ∈ warps, LaneRuleIf (.srd d r.1 b) 4 [] [(d, if r.2.1 then 2 else 1)] (fun _ _ _ _ => True)
      (fun s w _ _ l => put w d r.2.1 (r.2.2 s w) l) (one d r.1 r.2.1)) ∧
    (∀ (d : VReg), ∀ r ∈ privileged, LaneRuleIf (.srd d r.1 b) 4 [] [(d, if r.2.1 then 2 else 1)]
      (fun _ w _ _ => w.handler = true) (fun s w _ _ l => put w d r.2.1 (r.2.2 s w) l)) ∧
    ∀ (d : SReg) (s : State) (w : Warp) (e : FEntry), Runs s w e →
      (∀ r ∈ warps, Completes (.srds d r.1 b) 4 s w e (fun w' => w'.sregs = puts w d r.2.1 (r.2.2 s w) ∧
        ∀ L, w'.lane L = w.lane L) [] (both d r.1)) ∧
      (w.handler = true → ∀ r ∈ privileged, Completes (.srds d r.1 b) 4 s w e (fun w' =>
        w'.sregs = puts w d r.2.1 (r.2.2 s w) ∧ ∀ L, w'.lane L = w.lane L))

/-- For a warp that runs plainly, swr fflags gives each lane of the entry the low five bits of its source; swr tflags gives the
team of each lane the low six bits of the source of its highest lane in the entry and no other team anything; swr wmode of a
value with no reserved bit and an assigned rounding mode writes it; swr tscratch in handler mode writes it; nothing else
changes. -/
def Obligations.SpecialRegisterWrites : Prop :=
  ∀ (a : VReg) (c : SReg) (b : Bool),
    LaneRule (.swr (.fflags a) b) 4 [(a, 1)] [] (fun w _ l => { l with fflags := (l.v w.alloc a).extractLsb' 0 5 }) ∧
    ∀ (s : State) (w : Warp) (e : FEntry), Runs s w e →
      (OperandsReady w e [(a, 1)] [] → ∃ t w', exec (.swr (.tflags a) b) s = .next t ∧ Ends s w e 4 t w' ∧
        w'.sregs = w.sregs ∧ (∀ L, w'.lane L = w.lane L) ∧ t.mem = s.mem ∧
        (∀ i, (∀ L, e.mask.getLsbD L = true → (w.lane L).team.toNat ≠ i) → t.team? w.gk i = s.team? w.gk i) ∧
        (∀ g i, g ≠ w.gk → t.team? g i = s.team? g i) ∧
        ∀ L, e.mask.getLsbD L = true → (∀ M, L < M → e.mask.getLsbD M = true → (w.lane M).team ≠ (w.lane L).team) →
          t.team? w.gk (w.lane L).team.toNat = (s.team? w.gk (w.lane L).team.toNat).map (fun m =>
            { m with tflags := ((w.lane L).v w.alloc a).extractLsb' 0 6 })) ∧
      ((w.sv c.val).toNat < 2 ^ 10 → (w.sv c.val).toNat % 8 ≤ 4 → ∃ t w', exec (.swr (.wmode c) b) s = .next t ∧
        Ends s { w with wmode := w.sv c.val } e 4 t w' ∧ t.quiet = s.quiet ∧ w'.sregs = w.sregs ∧ ∀ L, w'.lane L = w.lane L) ∧
      (w.handler = true → ∃ t w', exec (.swr (.tscratch c) b) s = .next t ∧
        Ends s { w with tscratch := w.sv (c.val + 1) ++ w.sv c.val } e 4 t w' ∧ t.quiet = s.quiet ∧ w'.sregs = w.sregs ∧
        ∀ L, w'.lane L = w.lane L)

/-- In a calm package, for a warp outside handler mode whose stores have performed, with a handler and a reachable trap area,
where fadd, fsub or fmul raises in some lanes of the entry a flag that TEN enables, FPX is taken in exactly those lanes with the
OR of their enabled flags as detail; they keep every register, the other lanes have their results and stand, held, at the next
instruction, and every lane of the entry has its flags ORed into fflags. The OR over lanes is the model's reading (log entry
51). In a calm package, for a warp that would run plainly but for its pending list, outside handler mode, with a handler and a
reachable trap area: each listed instruction of which a direct operand is pending raises RUNHAZ in every active lane, with the
lowest pending number that it touches as detail, and does nothing else; where no direct operand of a lane operation is pending,
RUNHAZ is raised in exactly the lanes in which an indexed operand resolves to a pending register, and the other lanes have their
results. One detail for all lanes is the model's reading (log entry 51). -/
def Obligations.FloatingAndHazardTraps : Prop :=
  (∀ (d a c : VReg) (b : Bool),
    ∀ x ∈ ([(Instr.fadd d a c b, f32.add), (.fsub d a c b, f32.sub), (.fmul d a c b, f32.mul)]
        : List (Instr × (Bool → Bool → Nat → Nat → Enc))),
      ∀ s w e pa, Runs s w e → State.Calm s → Warp.performed w → Handles s w pa →
        OperandsReady w e [(a, 1), (c, 1)] [(d, 1)] →
        let ten : FFlags := w.wmode.extractLsb' 5 5
        let r (l : Lane) : Enc := x.2 (w.wmode.getLsbD 4) (w.wmode.getLsbD 3) (l.v w.alloc a).toNat (l.v w.alloc c).toNat
        let traps (L : Nat) : Bool := e.mask.getLsbD L && (r (w.lane L)).2 &&& ten != 0
        let m := maskOf ((lanesOf e.mask).filter traps)
        let lanes := w.lanes.mapIdx (fun L l => if e.mask.getLsbD L then
          (if traps L then l else l.setV w.alloc d (BitVec.ofNat 32 (r l).1)).orFlags (r l).2 else l)
        let w1 := { w with lanes := lanes,
                           front := addLanes (dropLanes w.front e.mask) (e.pc + 4) e.pri (e.mask &&& ~~~m) }
        m ≠ 0 → ∃ t w', exec x.1 s = .next t ∧ Trapped s w1 { e with mask := m } 0x0C
          ((lanesOf m).foldl (fun o L => o ||| ((r (w.lane L)).2 &&& ten)) 0).toNat 0 s.insn 4 pa t w') ∧
  (∀ (s0 : State) (w0 : Warp) (e : FEntry) (pa : Nat) (l : List Nat), Runs s0 w0 e → State.Calm s0 → Warp.performed w0 →
    Handles s0 w0 pa →
    let w := { w0 with pend := l }
    let s := { s0 with cur := some w }
    ∀ (d a c : VReg) (f g h : SReg) (p : PReg) (pr : BitVec 3) (off : BitVec 16) (imm : BitVec 7) (n u b : Bool),
    let pn : List Nat := if p.val = 7 then [] else [0xC0 + p.val]
    (∀ x ∈ ([(Instr.add d a c b, ([(d, 1), (a, 1), (c, 1)], [])), (.add64 d a c b, ([(d, 2), (a, 2), (c, 2)], [])),
        (.fadd d a c b, ([(d, 1), (a, 1), (c, 1)], [])), (.sel p d a c b, ([(d, 1), (a, 1), (c, 1)], pn)),
        (.cmpEq p a c b, ([(a, 1), (c, 1)], pn)), (.ldgB32 d a imm b, ([(d, 1), (a, 2)], [])),
        (.stgB64 d a imm b, ([(d, 2), (a, 2)], [])), (.br off n p pr u b, ([], pn)),
        (.sadd f g h b, ([], [0x80 + f.val, 0x80 + g.val, 0x80 + h.val]))]
        : List (Instr × (List (VReg × Nat) × List Nat))),
      OperandsReady w e [] x.2.1 →
      let touched (r : Nat) : Prop := r ∈ x.2.2 ∨ ∃ L, e.mask.getLsbD L = true ∧ ∃ y ∈ x.2.1, VReg.names (w.lane L) y r
      (∃ r ∈ l, r ∈ x.2.2 ∨ ∃ y ∈ x.2.1, ∃ k, y.1 = .v k ∧ k.val ≤ r ∧ r < k.val + y.2) →
      ∀ r ∈ l, touched r → (∀ q ∈ l, touched q → r ≤ q) →
        ∃ t w', exec x.1 s = .next t ∧ Trapped s w e 0x04 r 0 s.insn 4 pa t w') ∧
    (∀ x ∈ ([(Instr.add d a c b, fun x y => x + y), (.sub d a c b, fun x y => x - y), (.and d a c b, fun x y => x &&& y),
        (.or d a c b, fun x y => x ||| y), (.xor d a c b, fun x y => x ^^^ y)] : List (Instr × (Word → Word → Word))),
      OperandsReady w e [(a, 1), (c, 1)] [(d, 1)] → (∀ y ∈ [d, a, c], ∀ k, y = .v k → k.val ∉ l) →
      let touches (L r : Nat) : Prop := ∃ y ∈ [d, a, c], VReg.names (w.lane L) (y, 1) r
      ∀ m : Mask, m ≠ 0 → (∀ L, m.getLsbD L = true ↔ e.mask.getLsbD L = true ∧ ∃ r ∈ l, touches L r) →
      ∀ r ∈ l, (∃ L, m.getLsbD L = true ∧ touches L r) → (∀ q ∈ l, (∃ L, m.getLsbD L = true ∧ touches L q) → r ≤ q) →
        let w1 := { w with
          lanes := w.lanes.mapIdx (fun L z => if e.mask.getLsbD L && !m.getLsbD L then
            z.setV w.alloc d (x.2 (z.v w.alloc a) (z.v w.alloc c)) else z)
          front := addLanes (dropLanes w.front e.mask) (e.pc + 4) e.pri (e.mask &&& ~~~m) }
        ∃ t w', exec x.1 s = .next t ∧ Trapped s w1 { e with mask := m } 0x04 r 0 s.insn 4 pa t w'))

/-- In a calm package, for a warp that runs plainly: where its program counter is in range, no TLB has the page and the walk
finds no valid entry, INSTRUCTION_FETCH_FAULT answers a next state in which the entry is parked for the page, the fault is
outstanding with the warp waiting for it, and no lane, scalar register or byte of memory has changed; where bits 63 to 55 of the
program counter are not zero and the grid has a handler with a reachable trap area, PROT with detail 1 is taken. The word and
length that the record shows are free values (log entry 14). -/
def Obligations.FetchFaultsParkOrTrap : Prop :=
  ∀ (s : State) (w : Warp) (e : FEntry), Runs s w e → State.Calm s → Warp.performed w →
    let asid := s.asidOf w.gk
    let page := e.pc.toNat / 2 ^ 16
    (e.pc.toNat < 2 ^ 55 → (s.core w.die w.core).tlb.all (fun x => !x.covers asid e.pc.toNat) = true →
      (s.die w.die).l2tlb.all (fun x => !x.covers asid e.pc.toNat) = true → (∃ f, walk s asid e.pc.toNat = .fault f) →
      ∃ t w', exec .instructionFetchFault s = .next t ∧ t.warp? w.uid = some w' ∧ w'.sregs = w.sregs ∧
        (∀ L, w'.lane L = w.lane L) ∧ t.mem = s.mem ∧
        w'.front = dropLanes w.front e.mask ++ [{ pc := e.pc, pri := e.pri, mask := e.mask,
                                                  park := .page page asid e.pc true false, pfail := [] }] ∧
        ∃ f ∈ t.mmu.faults, f.asid = asid ∧ f.page = page ∧ Waiter.warp w.uid ∈ f.waiters) ∧
    ∀ pa, 2 ^ 55 ≤ e.pc.toNat → Handles s w pa → ∃ t w' insn len, exec .instructionFetchFault s = .next t ∧
      (len = 2 ∨ len = 4) ∧ Trapped s w e 0x06 1 e.pc insn len pa t w'

/-- SLOT_PICK of an idle slot with a ready warp gives the issue to the ready warp of the slot that issued longest ago, the lower
context on a tie, at the start of a run, and to no other; RUN_LIMIT takes a warp that has issued 24 instructions out of its
slot; RESULT_RETURN outside a run ends the pending of its register alone and sets the flags that come with it, and a load of the
register performs: it takes the value that memory has then; CAUTIOUS_MODE_END ends cautious mode and the rollback count;
TRAP_DELIVERY takes the held trap of a warp outside a run and a handler. -/
def Obligations.RunsBeginAndEnd : Prop :=
  (∀ (d k j : Nat) (s : State),
      let mine (x : Warp) : Prop := x ∈ s.warps ∧ x.die = d ∧ x.core = k ∧ x.ctx % 4 = j ∧ x.ready = true
      let before (x y : Warp) : Prop := match x.lastIssue, y.lastIssue with
        | none, none => x.ctx < y.ctx
        | none, some _ => True
        | some _, none => False
        | some p, some q => p < q ∨ (p = q ∧ x.ctx < y.ctx)
      s.cur = none → s.warps.Pairwise (fun x y => x.uid ≠ y.uid) → 96 * d + k < s.cores.length → j < 4 →
      (s.core d k).slots.length = 4 → (s.core d k).slots.getD j none = none → (∃ x, mine x) →
      ∃ t w, exec (.slotPick d k j) s = .next t ∧ mine w ∧ (∀ x, mine x → ¬ before x w) ∧
        t.cur = some { w with inRun := true, count := 0, front := startFront w.front } ∧
        t.warps = s.warps.filter (fun x => x.uid != w.uid) ∧ (t.core d k).slots.getD j none = some w.uid ∧ t.mem = s.mem) ∧
    ∀ (s : State) (w : Warp), Between s w →
      let changes (i : Instr) (w' : Warp) : Prop := ∃ t, exec i s = .next t ∧ t.warp? w.uid = some w' ∧ t.mem = s.mem ∧
        ∀ u, u ≠ w.uid → t.warp? u = s.warp? u
      (w.inRun = true → 24 ≤ w.count → w.heldTraps = [] → w.failing = false →
        changes (.runLimit w.uid) { w with inRun := false, count := 0 } ∧
        ∀ t, exec (.runLimit w.uid) s = .next t → ∀ c ∈ t.cores, some w.uid ∉ c.slots) ∧
      (∀ r, w.inRun = false → w.window = none → w.sent = [] →
        let back : Warp := { w with
          pend := w.pend.filter (· != r), lateFlags := w.lateFlags.filter (fun x => x.1 != r)
          lanes := w.lanes.mapIdx (fun L l => { l with
            fflags := w.lateFlags.foldl (fun f x => if x.1 = r ∧ x.2.1 = L then f ||| x.2.2 else f) l.fflags }) }
        (w.loads = [] → changes (.resultReturn w.uid r) back) ∧
        ∀ L pa n k signed, State.Calm s → w.loads = [⟨L, pa, n, .regs k signed, false, 0⟩] → w.lateFlags = [] → k ≤ r →
          r < k + regsOf n → changes (.resultReturn w.uid r) { w with
            pend := w.pend.filter (· != r), loads := []
            lanes := w.lanes.modify L (LoadDst.put (.regs k signed) n (Memory.value s.mem pa n)) }) ∧
      (w.cautious = 1 → changes (.cautiousModeEnd w.uid) { w with cautious := 0, rbCount := 0 }) ∧
      ∀ h pa, State.Calm s → Warp.performed w → Handles s w pa → w.inRun = false → w.failing = false → w.stopped = false →
        w.heldTraps = [h] →
        h.double = false → h.cause < 256 → dropLanes w.front h.mask = w.front →
        ∃ t w', exec (.trapDelivery w.uid) s = .next t ∧
          Trapped s w { pc := h.pc, pri := h.pri, mask := h.mask, park := .no, pfail := [] } h.cause h.detail h.addr h.insn
            h.len pa t w'

/-- In a calm package with no instruction under way, for a parked warp whose stores have performed and whose live lanes reach
their readable words free of poison, JOINW_WAKE ends the wait where every live lane's 64-bit counter is 0 and leaves the warp as
it is where one is not, and WAITW_WAKE does so with 32-bit words that have reached their thresholds; no other warp and no byte
of memory changes. Reading the words of a round together is the model's reading (log entry 39). With the permit free,
SERIAL_PERMIT_GRANT gives it to the first lane of the queue where that lane waits at a txb, whose entry then holds that lane
alone and is selectable from the warp's next run, and takes it out of the queue; where the lane waits no more it only takes the
request out. -/
def Obligations.WaitsEnd : Prop :=
  (∀ (s : State) (w : Warp) (pa : DWord → Nat), Between s w → State.Calm s → Warp.performed w →
    let round (i : Instr) (n : Nat) (ws : List (Nat × DWord × (Nat → Prop))) : Prop :=
      (∀ x ∈ ws, (w.lane x.1).life = .live → Reaches s w .read x.2.1.toNat n (pa x.2.1) ∧
        touchesPoison s.poison (pa x.2.1) n = false) →
      ∃ t, exec i s = .next t ∧ (∀ q, Memory.read t.mem q = Memory.read s.mem q) ∧
        (∀ u, u ≠ w.uid → t.warp? u = s.warp? u) ∧
        ((∀ x ∈ ws, (w.lane x.1).life = .live → x.2.2 (Memory.value s.mem (pa x.2.1) n)) →
          t.warp? w.uid = some { w with wait := none }) ∧
        ((∃ x ∈ ws, (w.lane x.1).life = .live ∧ ¬ x.2.2 (Memory.value s.mem (pa x.2.1) n)) → t.warp? w.uid = some w)
    (∀ ws n, w.wait = some (.joinw ws n) →
      round (.joinwWake w.uid) 8 (ws.map (fun x => (x.1, x.2, fun v => v = 0)))) ∧
    ∀ ws, w.wait = some (.waitw ws) →
      round (.waitwWake w.uid) 4 (ws.map (fun x => (x.1, x.2.1, fun v => x.2.2.toNat ≤ v)))) ∧
  (∀ (s : State) (u L : Nat) (rest : List (Nat × Nat)), s.lu.permit = none → s.lu.permitQ = (u, L) :: rest →
    (∀ w, Between s w → w.uid = u → (∃ e ∈ w.front, e.park = .serial ∧ e.mask.getLsbD L = true) →
      ∃ t w' e, exec .serialPermitGrant s = .next t ∧ t.lu = { s.lu with permit := some (u, L), permitQ := rest } ∧
        t.warp? u = some w' ∧ e ∈ w.front ∧ e.park = .serial ∧ e.mask.getLsbD L = true ∧
        { e with mask := laneBit L, park := .nextRun } ∈ w'.front ∧ w'.lanes = w.lanes ∧ t.mem = s.mem) ∧
    ((∀ x, s.warp? u = some x → ∀ e ∈ x.front ++ x.held, ¬(e.park = .serial ∧ e.mask.getLsbD L = true)) →
      ∃ t, exec .serialPermitGrant s = .next t ∧ t.lu = { s.lu with permit := none, permitQ := rest } ∧ t.mem = s.mem))

/-- For a warp with an open window and no instruction under way: ROLLBACK restores the frontier, lanes, scalar registers, wmode,
tags, pending list and held traps of the shadow point, ends the window, its wait and its run, removes its pending copies, counts
the rollback, enters cautious mode at the fourth in a row at one address, and changes no byte of memory; WARP_COMMIT, with
nothing unperformed before the shadow point, ends a window without later points and sends its stores and spawns on in order, its
loads no longer speculative; a window whose first later point still has a store of it before it keeps from that point on, and
sends on what comes before. No byte of memory changes. -/
def Obligations.WindowsCommitAndRollBack : Prop :=
  ∀ (s : State) (w : Warp) (v : Window), Between s w → w.window = some v → w.failing = false →
    let n := if w.rbAddr = v.save.pc ∧ w.rbCount ≠ 0 then w.rbCount + 1 else 1
    ((∀ x ∈ v.log, x.bad = false) → ∃ t w', exec (.rollback w.uid) s = .next t ∧ t.warp? w.uid = some w' ∧
      w'.front = v.save.front ∧ w'.lanes = v.save.lanes ∧ w'.sregs = v.save.sregs ∧ w'.wmode = v.save.wmode ∧
      w'.tags = v.save.tags ∧ w'.pend = v.save.pend ∧ w'.heldTraps = v.save.heldTraps ∧ w'.window = none ∧ w'.wait = none ∧
      w'.inRun = false ∧
      w'.loads = w.loads.filter (fun l => !l.spec) ∧ w'.rbAddr = v.save.pc ∧ w'.rbCount = n ∧ w'.cautious = (if 4 ≤ n then 65 else w.cautious) ∧
      t.mem = s.mem ∧ t.posted = s.posted ∧ (∀ u, u ≠ w.uid → t.warp? u = s.warp? u) ∧
      ∀ c ∈ (t.core w.die w.core).copies, ∀ y ∈ v.copies, y.2 ≠ c.uid) ∧
    (w.heldTraps = [] → w.stopped = false → w.sent = [] → (∀ l ∈ w.loads, l.spec = true) → (∀ x ∈ v.buf, x.posted = false) →
      let goes (w' : Warp) : Prop := ∃ t, exec (.warpCommit w.uid) s = .next t ∧ t.warp? w.uid = some w' ∧ t.mem = s.mem ∧
        t.posted = s.posted ∧ ∀ u, u ≠ w.uid → t.warp? u = s.warp? u
      (v.points = [] → (∀ x ∈ v.buf, x.spawn = none ∨ touchesPoison s.poison x.addr 8 = false) →
        goes { w with window := none, rbCount := 0, sent := v.buf, loads := w.loads.map (fun l => { l with spec := false }) }) ∧
      ∀ p rest, v.points = p :: rest → (∃ x ∈ v.buf, x.spawn = none ∧ x.seq < p.seq) →
        goes { w with
          rbCount := 0, sent := v.buf.filter (fun x => decide (x.seq < p.seq))
          loads := w.loads.map (fun l => if l.seq < p.seq then { l with spec := false } else l)
          window := some { v with
            save := p, points := rest, log := v.log.filter (fun x => decide (p.seq ≤ x.seq))
            buf := v.buf.filter (fun x => decide (p.seq ≤ x.seq)), ents := v.ents.filter (fun x => decide (p.seq ≤ x.1))
            watch := v.watch.filter (fun x => decide (p.seq ≤ x.seq)), copies := v.copies.filter (fun x => decide (p.seq ≤ x.1)) } })

/-- POSTED_STORE_PUBLISH for one agent marks that store alone as seen by it, where it does not see it already, and changes no
byte of memory; at the package point, where no warp speculates or is in a transaction, no line is kept, waited for or held by a
host and no earlier posted store overlaps it, the store leaves the posted ones, its bytes are in memory, and every other byte
reads as before. FORCED_PUBLISH of a line by an agent that some narrow-scope records do not cover leaves none of the posted
stores that precede their fences, and none of those records; where every record covers the agent, it changes nothing. -/
def Obligations.PostedStoresBecomeVisible : Prop :=
  ∀ s : State,
    (∀ l p r, s.posted = l ++ p :: r → s.posted.Pairwise (fun x y => x.uid ≠ y.uid) →
      (∀ a : Agent, (∀ x ∈ s.warps, x.window = none) → exec (.postedStorePublish p.uid (.agent a)) s = .next { s with
        posted := l ++ (if s.sees p a then p else { p with seen := p.seen ++ [a] }) :: r }) ∧
      ((∀ x ∈ s.allWarps, x.window = none ∧ x.anyTx = false) → (∀ x ∈ s.lines, x.isOpen = true ∧ x.hostFree = true ∧ x.queue = []) →
        (∀ d ∈ s.dies, ∀ x ∈ d.slices, x.retry = []) →
        (∀ q ∈ l, q.pa + q.bytes.length ≤ p.pa ∨ p.pa + p.bytes.length ≤ q.pa) →
        ∃ t, exec (.postedStorePublish p.uid .package) s = .next t ∧ t.posted = l ++ r ∧ t.warps = s.warps ∧
          ∀ q, Memory.read t.mem q = if p.pa ≤ q ∧ q < p.pa + p.bytes.length then p.bytes.getD (q - p.pa) 0
            else Memory.read s.mem q)) ∧
    ∀ (line : Nat) (a : Agent),
      let outside (n : Narrow) : Prop := n ∈ (s.line line).narrow ∧ a ≠ .thread n.w n.lane ∧
        s.within a n.scope n.die n.core n.gk n.team (s.homeDie (line * 128)) = false
      ((∀ x ∈ s.lines, x.isOpen = true ∧ x.hostFree = true) →
        ∃ t, exec (.forcedPublish line a) s = .next t ∧ t.posted.Sublist s.posted ∧
          (∀ n, n ∈ (t.line line).narrow ↔ n ∈ (s.line line).narrow ∧ ¬ outside n) ∧
          ∀ n, outside n → ∀ p ∈ t.posted, ¬(p.w = n.w ∧ p.lane = n.lane ∧ n.scope ∈ p.fences ∧ p.uid ≤ n.upto)) ∧
      ((∀ n, ¬ outside n) → exec (.forcedPublish line a) s = .next s)

/-- PARTIAL_WARP_TIMEOUT and JOINW_DUE_DELAY make a partial warp that is not due due 512 cycles after the assignment of its lane
0, and 64 cycles after one made while a warp of its team was parked in joinw, letting at least that time pass. COOPER_RELEASE
with a due partial warp, a place for it and nothing that bars it starts one gathered warp at the entry's address with priority
4, one lane per record with its payload, join address, gtid, sid and team and zeros elsewhere. -/
def Obligations.CooperGathersAndReleases : Prop :=
  ∀ (s : State) (d k : Nat), 96 * d + k < s.cores.length → d < s.dies.length →
    (∀ (p : Nat) (x : Partial), (s.core d k).cooper.parts[p]? = some x → x.due = none →
      let falls (i : Instr) (n : Nat) : Prop := ∃ t, exec i s = .next t ∧ n ≤ (t.die d).cycles ∧
        (t.core d k).cooper.parts = (s.core d k).cooper.parts.set p { x with due := some n } ∧ t.mem = s.mem ∧ t.warps = s.warps
      falls (.partialWarpTimeout d k p) (x.t0 + 512) ∧ ∀ t0, x.join0 = some t0 → falls (.joinwDueDelay d k p) (t0 + 64)) ∧
    ∀ (p : Partial) (x : Seat) (n : Nat), s.firstDue d k = some (p, n) → s.releaseOpen d k = true →
      seatOne (s.seats d k) (s.recOf p.gk) = some x →
      let r := s.recOf p.gk
      ∃ t w, exec (.cooperRelease d k) s = .next t ∧ t.warps = s.warps ++ [w] ∧ w.uid = s.nextUid ∧ w.die = d ∧ w.core = k ∧
        w.ctx = x.ctx ∧ w.gk = p.gk ∧ w.gathered = true ∧ w.index = 0xFFFFFFFF ∧ w.width = r.width ∧ w.alloc = r.regs ∧
        w.front = [.at (r.spawnEntry p.entry) 4 p.mask] ∧ w.sregs = List.replicate 64 0 ∧ w.wmode = 0 ∧
        w.lanes.length = r.width ∧ t.mem = s.mem ∧
        (∀ L y, L < r.width → p.recs[L]? = some (some y) →
          let l := w.lane L
          l.life = .live ∧ l.gtid = y.root ∧ l.sid = y.sid ∧ l.team = BitVec.ofNat 32 y.team ∧ l.join = y.join ∧
          l.preds = 0 ∧ l.xr = [0, 0, 0] ∧ l.fflags = 0 ∧ l.stack = [] ∧ l.win = [] ∧ l.ordinal = 0 ∧ l.lastsid = 0 ∧
          l.regs = y.payload ++ [(y.join.getD 0).extractLsb' 0 32, (y.join.getD 0).extractLsb' 32 32]
            ++ List.replicate (r.regs - 10) 0) ∧
        (∀ L, L < r.width → (p.recs.getD L none) = none → (w.lane L).life = .never) ∧
        ∀ L < 64, p.mask.getLsbD L = (p.recs.getD L none).isSome

/-- For a Cooper and a grid whose ring slots it reaches, in a calm package: RING_SPILL above 896 records, with only records of
that grid unassigned and room in its ring, takes the oldest unassigned records, in order, to the tail of the ring until 768 are
left; RING_REFILL below 256 records, when the ring is the next in turn, takes up to 128 records, whose slots nobody has written
or poisoned since, from the head of the ring to the Cooper, loses none and changes no byte of memory. For a Cooper that reaches
the warp's save slot, in a calm package: WARP_YIELD with a due partial warp for which the core has no place, and no yield under
way, lets at least 256 cycles pass since it fell due and marks the warp that parked in joinw first as yielded, which then holds
no context; WARP_RESTORE of a yielded warp that no longer waits, whose slot nobody has written or poisoned since, and for which
the core has a place gives it that place and nothing else. -/
def Obligations.OverflowRingsAndYields : Prop :=
  (∀ (s : State) (d k gk : Nat), s.cur = none → s.snooped = none → State.Calm s → 96 * d + k < s.cores.length →
    d < s.dies.length → (s.dies.getD d Die.init).rings.Pairwise (fun x y => x.gk ≠ y.gk) →
    let c := (s.core d k).cooper
    let kept (c : Cooper) : List SpawnRec := c.store ++ c.parts.flatMap Partial.held
    let ring (s : State) : List SpawnRec := (s.die d).ring gk
    let r := s.recOf gk
    let slot (i : Nat) : Nat := r.ring.toNat + d * r.ringsz.toNat + 64 * (i % (r.ringsz.toNat / 64))
    (896 < (kept c).length → (kept c).length ≤ 1024 → (c.parts.flatMap Partial.held).length ≤ 768 →
      (∀ y ∈ c.store, y.gk = gk) → gk ∉ (s.die d).deadRings → ((s.die d).ringOf gk).used + 256 ≤ r.ringsz.toNat / 64 →
      (∀ i, CooperReaches s d k gk .write (slot i) 64) →
      ∃ t n, exec (.ringSpill d k) s = .next t ∧ n + 768 = (kept c).length ∧ (t.core d k).cooper.store = c.store.drop n ∧
        (t.core d k).cooper.parts = c.parts ∧ ring t = ring s ++ c.store.take n) ∧
    ((kept c).length < 256 → s.nextRing d k = some gk → c.parts.Pairwise (fun p q => ¬(p.gk = q.gk ∧ p.entry = q.entry)) →
      (∀ i, CooperReaches s d k gk .read (slot i) 64) →
      (∀ x ∈ ((s.die d).ringOf gk).slots, SlotKept s d k gk (slot x.pos) 64 x.seed) →
      ∃ t, exec (.ringRefill d k gk) s = .next t ∧ t.mem = s.mem ∧ ring t = (ring s).drop (min 128 (ring s).length) ∧
        (t.core d k).cooper.lastRing = gk ∧
        ∀ y, (kept (t.core d k).cooper).count y = (kept c).count y + ((ring s).take (min 128 (ring s).length)).count y)) ∧
  (∀ s : State, s.cur = none → s.snooped = none → State.Calm s →
    (∀ (d k : Nat) (p : Partial) (n : Nat) (w : Warp), d < s.dies.length → (∀ x ∈ s.warps, x.yielding = false) → s.firstDue d k = some (p, n) →
      s.yielder d k = some w → Between s w → seatOne (s.seats d k) (s.recOf p.gk) = none →
      CooperReaches s d k w.gk .write (s.saveAddr w) (s.recOf w.gk).saveSlot →
      ∃ t, exec (.warpYield d k) s = .next t ∧ t.warp? w.uid = some { w with yielded := true, slotSeed := s.free } ∧
        (∀ u, u ≠ w.uid → t.warp? u = s.warp? u) ∧ n + 256 ≤ (t.die d).cycles) ∧
    ∀ (w : Warp) (x : Seat), Between s w → w.yielded = true → w.wait = none → w.failing = false → w.stopped = false →
      seatOne (s.seats w.die w.core) (s.recOf w.gk) = some x →
      CooperReaches s w.die w.core w.gk .read (s.saveAddr w) (s.recOf w.gk).saveSlot →
      SlotKept s w.die w.core w.gk (s.saveAddr w) (s.recOf w.gk).saveSlot w.slotSeed →
      ∃ t, exec (.warpRestore w.uid) s = .next t ∧ t.mem = s.mem ∧ (∀ u, u ≠ w.uid → t.warp? u = s.warp? u) ∧
        t.warp? w.uid = some { w with yielded := false, ctx := x.ctx, bankBase := x.base, bankWord := x.start })

/-- In a package that is up: QPUSH of an aligned, populated, poison-free record into a queue with room and no push on its way,
with every home idle, queues it as a grid of depth as written with the queue's number, and otherwise only sets OVF;
QUANTUM_WRITE clamps; QSTAT_CLEAR_OVF clears OVF on bit 16; GRID_QUERY names the unfinished grids of an identifier; drain,
resume and kill set or clear the mark of every named grid and of every descendant of it, and drain and kill take back a selected
team of one, drain only where no die has accepted it; WARP_KILL_STOP ends a warp marked to stop outside a run whose stores have
performed; a register write at an unaligned, read-only or unlisted offset changes nothing and one at a listed offset sets its
register or gives its command. A base register that keeps the bits of an unaligned value is the model's reading (log entry 48).
-/
def Obligations.QueuesTakePushesAndCommands : Prop :=
  ∀ s : State, s.up = true →
    (∀ (q : Nat) (pa : DWord), q < 64 → s.posted = [] → State.HomesIdle s → (∀ x ∈ s.lu.pushes, x.1 ≠ q) →
      let r := LaunchRec.ofBytes (fun o => Memory.read s.mem (pa.toNat + o))
      let fifo := (s.lu.queues.getD q Queue.init).fifo
      let good : Prop := fifo.length < 1024 ∧ pa.toNat % 256 = 0 ∧ s.populated pa.toNat = true ∧
        touchesPoison s.poison pa.toNat 256 = false
      (good → ∃ t g, exec (.qpush q pa) s = .next t ∧ t.grids = s.grids ++ [g] ∧ t.mem = s.mem ∧
        t.lu = { s.lu with queues := s.lu.queues.modify q (fun x => { x with fifo := x.fifo ++ [s.nextUid] }) } ∧
        g.key = s.nextUid ∧ g.addr = pa ∧ g.byRuntime = true ∧ g.queue = q ∧ g.st = .queued ∧ g.parentKey = none ∧
        g.nextTeam = 0 ∧ g.ended = 0 ∧ g.rcd.queue = q ∧ { g.rcd with sched := r.sched } = r ∧
        g.rcd.sched &&& ~~~0x3F = r.sched &&& ~~~0x3F) ∧
      (¬ good → exec (.qpush q pa) s = .next { s with lu := { s.lu with
        queues := s.lu.queues.modify q (fun x => { x with ovf := true }) } })) ∧
    (∀ (q : Nat) (v : DWord), exec (.quantumWrite q v) s = .next { s with lu := { s.lu with
      queues := s.lu.queues.modify q (fun x => { x with
        quantum := if v.toNat = 0 then 1 else if 2 ^ 40 < v.toNat then 2 ^ 40 else v.toNat }) } }) ∧
    (∀ (q : Nat) (v : DWord), exec (.qstatClearOvf q v) s = .next (if v.getLsbD 16 then { s with lu := { s.lu with
      queues := s.lu.queues.modify q (fun x => { x with ovf := false }) } } else s)) ∧
    (∀ id : Word, ∃ t, exec (.gridQuery id) s = .next t ∧ t = { s with lu := t.lu } ∧
      ∀ k, k ∈ t.lu.named ↔ ∃ g ∈ s.grids, g.key = k ∧ g.rcd.grid = id ∧ g.finished = false) ∧
    (s.grids.Pairwise (fun x y => x.key ≠ y.key) → ∀ id : Word,
      let named (g : Grid) : Prop := g ∈ s.grids ∧ g.rcd.grid = id ∧ g.finished = false
      let parent (o : Option Nat) : Option Nat := o.bind (fun k => (s.grid? k).bind (fun x => x.parentKey))
      let hit (g : Grid) : Prop := g ∈ s.grids ∧ ∃ n ≤ 10, ∃ p, named p ∧ Nat.iterate parent n (some g.key) = some p.key
      let waits (d : Die) : Prop := d.resv.isSome = true ∨ d.waitBack = true ∨ d.conflicts ≠ 0
      (∃ t, exec (.gridDrain id) s = .next t ∧ (∀ g, hit g → (t.grid? g.key).map (fun x => x.drained) = some true) ∧
        ((∀ d ∈ s.dies, ¬ waits d) → ∀ g i, hit g → t.lu.selected ≠ some (g.key, i)) ∧
        ((∃ d ∈ s.dies, waits d) → t.lu.selected = s.lu.selected) ∧ t.mem = s.mem ∧ t.warps = s.warps) ∧
      (∃ t, exec (.gridResume id) s = .next t ∧ (∀ g, hit g → (t.grid? g.key).map (fun x => x.drained) = some false) ∧
        t.mem = s.mem ∧ t.warps = s.warps) ∧
      (∃ t, exec (.gridKill id) s = .next t ∧ (∀ g, hit g → (t.grid? g.key).map (fun x => x.killed) = some true) ∧
        ∀ g i, hit g → t.lu.selected ≠ some (g.key, i))) ∧
    (∀ w, Between s w → w.kill = true → w.inRun = false → w.sent = [] →
      ∃ t, exec (.warpKillStop w.uid) s = .next t ∧ t.warp? w.uid = none) ∧
    ∀ (off : Nat) (v : DWord),
      let write (t : State) : Prop := exec (.registerWrite off v) s = .next t
      (off % 8 ≠ 0 → write s) ∧
      (off ∈ [0x1008, 0x10018, 0x10030, 0x10050, 0x10100, 0x20010, 0x30018, 0x40000, 0x50000] → write s) ∧
      (off = 0x10000 → write { s with mmu := { s.mmu with atbase := v } }) ∧
      (off = 0x10008 → write { s with mmu := { s.mmu with fqbase := v } }) ∧
      (off = 0x10010 → write { s with mmu := { s.mmu with fqhead := v } }) ∧
      (off = 0x10040 → write { s with mmu := { s.mmu with mqbase := v } }) ∧
      (off = 0x10048 → write { s with mmu := { s.mmu with mqtail := v } }) ∧
      (off = 0x20000 → write { s with err := { s.err with eqbase := v } }) ∧
      (off = 0x20008 → write { s with err := { s.err with eqhead := v } }) ∧
      (off = 0x20018 → v = 0 → write { s with err := { s.err with eqcorr := 0 } }) ∧
      (∀ q < 64, (off = 64 * q + 0x10 → write { s with lu := { s.lu with queues := s.lu.queues.modify q (fun x =>
          { x with deficit := v.toInt }) } }) ∧
        (off = 64 * q + 0x08 → exec (.registerWrite off v) s = exec (.quantumWrite q v) s) ∧
        (off = 64 * q + 0x18 → exec (.registerWrite off v) s = exec (.qstatClearOvf q v) s) ∧
        (off = 64 * q + 0x20 → exec (.registerWrite off v) s = exec (.qpush q v) s)) ∧
      (off = 0x1000 → v.toNat < 2 ^ 34 → exec (.registerWrite off v) s =
        (match v.toNat / 2 ^ 32 with
         | 0 => exec (.gridQuery (v.extractLsb' 0 32)) s
         | 1 => exec (.gridDrain (v.extractLsb' 0 32)) s
         | 2 => exec (.gridResume (v.extractLsb' 0 32)) s
         | _ => exec (.gridKill (v.extractLsb' 0 32)) s)) ∧
      (off = 0x30000 → exec (.registerWrite off v) s = exec (.pstateSet v) s) ∧
      (off = 0x30008 → exec (.registerWrite off v) s = exec (.pstatClear v) s) ∧
      (off = 0x30010 → exec (.registerWrite off v) s = exec (.plimitWrite v) s)

/-- In a package in which every home is idle and no warp speculates: ADMISSION admits the record at the head of a queue that
passes every check, and drops with a record in the error queue one that fails; WAIT_WORD_NOTIFY makes an admitted grid ready
when every wait word has reached its value; TEAM_SELECT hands out the next team of the queue at the pointer of the highest
eligible class where its deficit is positive after its credit; TEAM_PLACEMENT starts an ordinary team's warps with zero
registers, their gtids and one entry of priority 4 on the chosen core, and reserves a pair, with its leader's places, for a twin
team; a reservation whose follower no longer has room ends in a back-off, which ends doubled; TEAM_RETIRE retires a team that is
over, with nothing left to report, of a grid that is not killed; DONE_WORD_ADD adds 1 to the done word of a grid that is due.
The slot and tail of the error queue modulo 4,096 (log entry 12) and the reach of wait and done words through the L2 TLB of die
0 (log entry 60) are the model's reading. -/
def Obligations.GridsAreAdmittedPlacedAndDone : Prop :=
  ∀ s : State, State.HomesIdle s → (∀ x ∈ s.allWarps, x.window = none) →
    let word (asid : Nat) (a : DWord) (write : Bool) (pa : Nat) : Prop := a.toNat < 2 ^ 55 ∧
      (asid, a.toNat / 2 ^ 16) ∉ s.lu.answers ∧
      s.populated pa = true ∧
      ∃ e, (s.die 0).l2tlb.find? (fun x => x.covers asid a.toNat) = some e ∧ e.pa a.toNat = pa ∧ e.io = false ∧ e.r = true ∧
        (write = true → e.w = true)
    (∀ q g, s.headOf q = some g → g.st = .queued → g.killed = false → (∀ x ∈ s.lu.pushes, x.1 ≠ q) →
      (g.rcd.rejected g.byRuntime = none → (∃ pa, word g.rcd.asidN g.rcd.done true pa) →
        (∀ x ∈ g.rcd.wait, x.1 ≠ 0 → ∃ pa, word g.rcd.asidN x.1 false pa) →
        ∃ t, exec (.admission q) s = .next t ∧ t.grid? g.key = some { g with st := .admitted } ∧ t.lu = s.lu ∧ t.mem = s.mem) ∧
      (∀ row, g.rcd.rejected g.byRuntime = some row → s.errFull = false → s.err.held = [] → s.err.order = [] → s.err.waiting = [] →
        ∃ t, exec (.admission q) s = .next t ∧ t.grid? g.key = some { g with st := .ended } ∧
          (∀ x ∈ t.lu.queues, g.key ∉ x.fifo) ∧
          Memory.value t.mem (s.err.eqbase.toNat + 128 * (s.err.eqtail.toNat % 4096)) 4 = 0x04 + row * 2 ^ 8 + 7 * 2 ^ 16 ∧
          t.err.eqtail.toNat = (s.err.eqtail.toNat + 1) % 4096)) ∧
    (∀ g (pa : DWord → Nat), s.grid? g.key = some g → g.st = .admitted → s.posted = [] →
      (∀ x ∈ g.rcd.wait, x.1 ≠ 0 → word g.rcd.asidN x.1 false (pa x.1) ∧ touchesPoison s.poison (pa x.1) 8 = false) →
      ∃ t, exec (.waitWordNotify g.key) s = .next t ∧ t.mem = s.mem ∧
        ((∀ x ∈ g.rcd.wait, x.1 ≠ 0 → x.2.toNat ≤ Memory.value s.mem (pa x.1) 8) →
          t.grid? g.key = some { g with st := .ready }) ∧
        ((∃ x ∈ g.rcd.wait, x.1 ≠ 0 ∧ Memory.value s.mem (pa x.1) 8 < x.2.toNat) → t.grid? g.key = some g)) ∧
    (∀ c g,
      let p := s.lu.pointers.getD c 0
      let x := s.lu.queues.getD p Queue.init
      let d : Int := if x.credited then x.deficit else x.deficit + x.quantum
      s.lu.selected = none → p < 64 → s.eligible p = true → s.headOf p = some g → g.rcd.cls = c → 0 < d →
      (∀ q < 64, ∀ y, s.eligible q = true → s.headOf q = some y → y.rcd.cls ≤ c) →
      ∃ t, exec .teamSelect s = .next t ∧ t = { s with lu := { s.lu with
        queues := s.lu.queues.modify p (fun y => { y with deficit := d, credited := true }),
        pointers := s.lu.pointers.set c p, selected := some (g.key, g.nextTeam) } }) ∧
    (∀ d k gk idx, s.lu.selected = some (gk, idx) → d < s.sku.dies → (s.die d).waitBack = false →
      let r := s.recOf gk
      s.offeredTo d r = true → s.chooseCore d r = some k → 96 * d + k < s.cores.length → d < s.dies.length →
      (r.twin = false → ∃ t m ws, exec (.teamPlacement d) s = .next t ∧ t.mem = s.mem ∧ t.teams = s.teams ++ [m] ∧
        m.gk = gk ∧ m.idx = idx ∧ m.die = d ∧ m.core = k ∧ m.twin = false ∧ m.tflags = 0 ∧ m.st = .running ∧
        t.lu.selected = none ∧ t.lu.lastDie = d ∧ t.warps = s.warps ++ ws ∧ ws.length = r.warps ∧
        ∀ i w, ws[i]? = some w → w.die = d ∧ w.core = k ∧ w.gk = gk ∧ w.index = BitVec.ofNat 32 i ∧ w.gathered = false ∧
          w.width = r.width ∧ w.alloc = r.regs ∧ w.lanes.length = r.width ∧
          w.front = [.at r.entry 4 (fullMask r.width)] ∧ w.sregs = List.replicate 64 0 ∧ w.wmode = 0 ∧
          ∀ L < r.width, (w.lane L).regs = List.replicate r.regs 0 ∧ (w.lane L).team = BitVec.ofNat 32 idx ∧
            (w.lane L).sid = 0 ∧ (w.lane L).preds = 0 ∧
            (w.lane L).gtid = BitVec.ofNat 64 (idx * (r.warps * r.width) + (i * r.width + L))) ∧
      (r.twin = true → (s.die d).resv = none → ∃ t, exec (.teamPlacement d) s = .next t ∧ (∃ l, (t.die d).resv = some ⟨k / 2, l⟩ ∧
        seatMany r r.leaders (s.seats d k) = some l) ∧ t.teams = s.teams ∧ t.warps = s.warps ∧ t.mem = s.mem)) ∧
    (∀ d gk idx x, s.lu.selected = some (gk, idx) → d < s.sku.dies → d < s.dies.length → (s.recOf gk).twin = true →
      s.offeredTo d (s.recOf gk) = true → (s.die d).resv = some x →
      s.coreTakes d (2 * x.pair + 1) (s.recOf gk) ((s.recOf gk).warps - (s.recOf gk).leaders) = false →
      ∃ t, exec (.teamPlacement d) s = .next t ∧ t.teams = s.teams ∧ t.warps = s.warps ∧ t.lu = s.lu ∧
        t.die d = { s.die d with
          resv := none, waitBack := true, conflicts := (s.die d).conflicts + 1
          stopPair := if 8 ≤ (s.die d).conflicts + 1 then some x.pair else (s.die d).stopPair }) ∧
    (∀ d, d < s.dies.length → (s.die d).waitBack = true → ∃ t, exec (.twinBackoffExpiry d) s = .next t ∧
      (t.die d).waitBack = false ∧ (t.die d).backoff = min (2 * (s.die d).backoff) 1024 ∧
      (s.die d).cycles + (s.die d).backoff ≤ (t.die d).cycles ∧ t.mem = s.mem) ∧
    (∀ m g, s.team? m.gk m.idx = some m → s.grid? m.gk = some g → g.killed = false → s.teamOver m = true →
      m.due = none → s.posted = [] → (s.verifyTeam m).errRoom m.die = true →
      ∃ t, exec (.teamRetire m.gk m.idx) s = .next t ∧
        t.team? m.gk m.idx = some { m with st := .retired, arrivals := [], mode := .idle } ∧
        (∃ told, t.grid? m.gk = some { g with ended := g.ended + 1, drainTold := told }) ∧
        ∀ k ∈ m.cores, ∀ u ∈ (t.core m.die k).units, u.owner ≠ some (m.gk, m.idx)) ∧
    ∀ g pa, s.grid? g.key = some g → s.gridDue g = true → g.rcd.done.toNat % 8 = 0 → word g.rcd.asidN g.rcd.done true pa →
      touchesPoison s.poison pa 8 = false → s.posted = [] →
      ∃ t, exec (.doneWordAdd g.key) s = .next t ∧ (t.grid? g.key).map (fun x => x.finished) = some true ∧
        Memory.value t.mem pa 8 = (Memory.value s.mem pa 8 + 1) % 2 ^ 64 ∧
        ∀ q, q < pa ∨ pa + 8 ≤ q → Memory.read t.mem q = Memory.read s.mem q

/-- In a package that is up, in which every home is idle and no warp speculates: ERROR_RECORD_FLUSH writes the oldest held
record of a die, where none of another die is older, into the next slot of a ring with space and moves the tail;
CORRECTABLE_RECORD writes the first record of a unit and store with its count, or adds the count to EQCORR while the ring is
full, and clears the count; TEMPERATURE_BAND_EXIT keeps the temperature and marks a core that left its band, and at 105 °C
trips; SOFT_ERROR poisons the sector of an uncorrectable memory error, strikes a lane register word, drops a struck TLB entry
and counts a corrected cache error. Ring indices modulo 4,096 (log entry 12) and a sector poisoned at once (log entry 17) are
the model's. -/
def Obligations.ErrorsAreHeldAndRecorded : Prop :=
  ∀ s : State, s.up = true → s.dies.length = 4 → State.HomesIdle s → (∀ x ∈ s.allWarps, x.window = none) →
    let slot : Nat := s.err.eqbase.toNat + 128 * (s.err.eqtail.toNat % 4096)
    let moved (t : State) : Prop := t.err.eqtail.toNat = (s.err.eqtail.toNat + 1) % 4096
    (∀ d r rest, s.errHeld d = r :: rest → s.err.order.head? = some d → (∀ x ∈ s.err.waiting, x.die ≠ d) →
      s.errFull = false → ∃ t, exec (.errorRecordFlush d) s = .next t ∧
      t.errHeld d = rest ∧ moved t ∧ r.bytes.length = 128 ∧
      ∀ i < 128, Memory.read t.mem (slot + i) = r.bytes.getD i 0) ∧
    (∀ d k store n, s.err.corr.find? (fun x => x.1 == d && x.2.1 == k && x.2.2.1 == store) = some (d, k, store, n, none) →
      n ≠ 0 → store < 2 ^ 8 → d < 2 ^ 4 → k < 2 ^ 8 → ∃ t, exec (.correctableRecord d k store) s = .next t ∧
      (s.errFull = false → moved t ∧ Memory.value t.mem slot 4 = 0x06 + store * 2 ^ 8 + d * 2 ^ 16 + k * 2 ^ 20 ∧
        Memory.value t.mem (slot + 0x0C) 4 = n % 2 ^ 32 ∧ (d, k, store, 0, some s.ticks) ∈ t.err.corr) ∧
      (s.errFull = true → t.mem = s.mem ∧ t.err.eqcorr = s.err.eqcorr + BitVec.ofNat 64 n ∧
        (d, k, store, 0, none) ∈ t.err.corr)) ∧
    (∀ d k temp, d < s.sku.dies → k < 96 → 96 * d + k < s.cores.length → s.pwr.rails = true → ∃ t,
      exec (.temperatureBandExit d k temp) s = .next t ∧ (t.core d k).temp = temp ∧
      (240 < (temp - (s.core d k).calTemp).natAbs → (t.core d k).bandOut = true) ∧
      (16 * 105 ≤ temp → t.pwr.tripped = true ∧ t.mgmt.tripReport = true)) ∧
    (∀ pa, s.populated pa = true → tierOf pa < 2 → s.posted = [] →
      (∀ i < 4096, s.err.eqbase.toNat + 128 * i + 128 ≤ pa / 32 * 32 ∨ pa / 32 * 32 + 32 ≤ s.err.eqbase.toNat + 128 * i) →
      ∃ t, exec (.softError (.memory pa) true) s = .next t ∧
      ∀ i < 4, pa / 32 * 4 + i ∈ t.poison) ∧
    (∀ w L r, Between s w → L < w.lanes.length → ∃ t w', exec (.softError (.laneReg w.uid L r) true) s = .next t ∧
      t.warp? w.uid = some w' ∧ r ∈ (w'.lane L).badRegs ∧ (w'.lane L).regs = (w.lane L).regs ∧ t.mem = s.mem) ∧
    (∀ d k i, 96 * d + k < s.cores.length → d < s.dies.length →
      (∃ t, exec (.softError (.tlb d k i) true) s = .next t ∧ (t.core d k).tlb = (s.core d k).tlb.eraseIdx i ∧ t.mem = s.mem) ∧
      ∃ t, exec (.softError (.l2tlb d i) true) s = .next t ∧ (t.die d).l2tlb = (s.die d).l2tlb.eraseIdx i ∧ t.mem = s.mem) ∧
    ∀ d k pa, ∃ t, exec (.softError (.l1 d k pa) false) s = .next t ∧ t.mem = s.mem ∧ t.poison = s.poison ∧ t.warps = s.warps ∧
      ∃ n v, (d, k, 1, n + 1, v) ∈ t.err.corr

/-- In a package that is up: a well-formed PCMD with no change in progress sets BUSY and names the dies, one during a change
only sets DROP, an ill-formed one does nothing; the change ends with the named dies at their P-state; PSTAT bits clear; PLIMIT
is clamped; a throttle lowers a die, a clamp costs it a cycle and sets THROT, a temperature of 105 °C trips, which the next boot
reports. In any: power off loses memory and every warp; power on or a management reset boots the accepted image, slot A first
but for an update since, with every die at P2, or recovery. An update goes to the slot that did not boot. Each attestation
request gets one response, and one in its turn moves the session on. What an out-of-turn request does (log entry 8), what boot
and update clear and which slot is first (log entry 18), and cycle counts across a change (log entry 50) are the model's. -/
def Obligations.PowerBootAndAttestation : Prop :=
  ∀ s : State, (s.up = true →
    (∀ v : DWord, let x := v.toNat
      let good : Prop := x < 2 ^ 10 ∧ x / 2 ^ 4 % 2 ^ 4 = 0 ∧ x / 2 ^ 8 ≠ 3
      (¬ good → exec (.pstateSet v) s = .next s) ∧
      (good → s.pwr.busy = true → exec (.pstateSet v) s = .next { s with pwr := { s.pwr with drop := true } }) ∧
      (good → s.pwr.busy = false → ∃ t, exec (.pstateSet v) s = .next t ∧ t.pwr = { s.pwr with busy := true } ∧
        ∀ d, d < s.dies.length → t.die d = if v.getLsbD d = true ∧ d < s.sku.dies then
          { s.die d with pnext := some (x / 2 ^ 8) } else s.die d)) ∧
    (∀ v : DWord, exec (.pstatClear v) s = .next { s with pwr := { s.pwr with
      drop := s.pwr.drop && !v.getLsbD 16, throt := s.pwr.throt && !v.getLsbD 17 } }) ∧
    (∀ v : DWord, exec (.plimitWrite v) s = .next { s with pwr := { s.pwr with
      plimit := if v.toNat < s.sku.watts / 2 then s.sku.watts / 2 else if s.sku.watts < v.toNat then s.sku.watts else v.toNat } }) ∧
    (∀ d p, d < s.sku.dies → d < s.dies.length → (s.die d).pstate < p → p ≤ 2 → ∃ t,
      exec (.powerLimitThrottle d p) s = .next t ∧ (t.die d).pstate = p ∧ t.pwr = { s.pwr with lowered := true } ∧
      t.mem = s.mem) ∧
    (∀ d, d < s.sku.dies → d < s.dies.length → ∃ t, exec (.currentClamp d) s = .next t ∧
      t.pwr = { s.pwr with throt := true } ∧ (s.die d).cycles + 1 ≤ (t.die d).cycles ∧ t.mem = s.mem) ∧
    (s.pwr.rails = true → exec .thermalTrip s = .next (if 16 * 105 ≤ s.pwr.temp then { s with
      pwr := { s.pwr with tripped := true }, mgmt := { s.mgmt with tripReport := true } } else s))) ∧
    (s.pwr.busy = true → ∃ t, exec .pstateChangeDone s = .next t ∧ t.pwr = { s.pwr with busy := false } ∧
      ∀ d, d < s.dies.length → (∀ p, (s.die d).pnext = some p → (t.die d).pstate = p ∧ (t.die d).pnext = none) ∧
        ((s.die d).pnext = none → t.die d = s.die d) ∧ (t.die d).cycles = (s.die d).cycles) ∧
    (∃ t, exec .mainRailsOff s = .next t ∧ t.pwr.rails = false ∧ t.mem = [] ∧ t.cur = none ∧ t.warps = [] ∧ t.grids = [] ∧
      t.mgmt.boot = .off ∧ t.mgmt.slotA = s.mgmt.slotA ∧ t.mgmt.slotB = s.mgmt.slotB ∧ t.mgmt.svnFuse = s.mgmt.svnFuse) ∧
    (∀ i ∈ [Instr.powerOnBoot, .managementReset], (i = .powerOnBoot ↔ s.pwr.rails = false) →
      let ok (im : List Byte) : Bool := imageOk im s.mgmt.keyHash s.mgmt.svnFuse
      let slot (b : Bool) : List Byte := if b then s.mgmt.slotB else s.mgmt.slotA
      ∃ t, exec i s = .next t ∧ t.warps = [] ∧ t.grids = [] ∧ t.pwr.rails = true ∧
        (ok (slot s.mgmt.firstB) = true → t.mgmt.boot = .running ∧ t.mgmt.bootedB = s.mgmt.firstB ∧
          t.mgmt.svn = imageSvn (slot s.mgmt.firstB)) ∧
        (ok (slot s.mgmt.firstB) = false → ok (slot (!s.mgmt.firstB)) = true → t.mgmt.boot = .running ∧
          t.mgmt.bootedB = (!s.mgmt.firstB) ∧ t.mgmt.svn = imageSvn (slot (!s.mgmt.firstB))) ∧
        (ok s.mgmt.slotA = false → ok s.mgmt.slotB = false → t.mgmt.boot = .recovery) ∧
        ∀ d ∈ t.dies, d.pstate = 2) ∧
    (∀ im : List Byte, s.mgmt.boot = .running → exec (.firmwareUpdate im) s = .next { s with mgmt :=
      if s.mgmt.bootedB = true then { s.mgmt with slotA := im, firstB := false }
      else { s.mgmt with slotB := im, firstB := true } }) ∧
    ∀ req : List Byte, s.mgmt.boot = .running →
      ∀ x ∈ ([(Instr.getVersion req, (0, .version)), (.getCapabilities req, (1, .caps)),
          (.negotiateAlgorithms req, (2, .algs)), (.getDigests req, (3, s.mgmt.spdm)), (.getCertificate req, (3, s.mgmt.spdm)),
          (.challenge req, (3, s.mgmt.spdm)), (.getMeasurements req, (3, s.mgmt.spdm)), (.keyExchange req, (3, .keyExchanged)),
          (.finish req, (4, .session))] : List (Instr × (Nat × Spdm))),
        ∃ t r, exec x.1 s = .next t ∧ t = { s with mgmt := t.mgmt } ∧ t.mgmt.out = s.mgmt.out ++ [r] ∧
          (x.2.1 ≤ s.mgmt.spdm.stage → t.mgmt.spdm = x.2.2) ∧ (s.mgmt.spdm.stage < x.2.1 → t.mgmt.spdm = s.mgmt.spdm)

/-- In a calm package with no instruction under way and no agent waiting to report: COPY_COMPLETE of a G2G that may run, whose
bytes it can read free of poison and whose destination it can write, gives each destination byte its source byte as it was,
changes no other byte, takes the copy out of its engine and completes its tag with status 0 and its number of bytes. MMUL_START
takes the oldest queued mmul, if none runs and nothing issued earlier bars it; ARRAY_STEP of a plane that does not end a row
takes the step time alone; MMUL_COMPLETE after the last step leaves none running and completes the tag with POISON, CIMERR or 0.
That a copy reads every source byte before it writes is the model's choice (log entry 28). -/
def Obligations.MatrixWorkEnds : Prop :=
  ∀ s : State, s.cur = none → s.snooped = none → State.Calm s → s.err.waiting = [] →
    (∀ (c : Copy) (m : Team) (src : Nat → Nat) (dst : Nat), s.copy? c.uid = some c → s.team? c.gk c.team = some m →
      s.copyReady c m = true → c.fn = .g2g → c.refused = false → c.taken = 0 → c.bytes = 0 → c.out = [] → c.waits = none →
      let word (i : Nat) : Nat := (c.cb.getD i 0).toNat
      let n := 128 * (word 3 / 2 ^ 23 + 1)
      let addr (i : Nat) : Nat := word i + word (i + 1) % 2 ^ 23 * 2 ^ 32
      (∀ i < n, ReachesAt s c.die c.core (s.asidOf c.gk) .read (addr 0 + i) 1 (src i) ∧
        touchesPoison s.poison (src i) 1 = false ∧
        ReachesAt s c.die c.core (s.asidOf c.gk) .write (addr 2 + i) 1 (dst + i)) →
      ∃ t, exec (.copyComplete c.uid) s = .next t ∧
        (∀ q, Memory.read t.mem q =
          if dst ≤ q ∧ q < dst + n then Memory.read s.mem (src (q - dst)) else Memory.read s.mem q) ∧
        (∀ w, s.warp? c.w = some w → t.warp? c.w = some (w.tagDone c.tag 0 n c.uid)) ∧
        ∀ x ∈ (t.core c.die c.core).copies, x.uid ≠ c.uid) ∧
    ∀ d k, 96 * d + k < s.cores.length →
      (∀ o rest m, (s.core d k).run = none → (s.core d k).mq = o :: rest → s.team? o.gk o.team = some m →
        s.blocked o.uid (o.zones m) = false →
        ∃ t, exec (.mmulStart d k) s = .next t ∧ (t.core d k).run = some o ∧ (t.core d k).mq = rest ∧ t.mem = s.mem ∧
          t.warps = s.warps) ∧
      (∀ o m, (s.core d k).run = some o → s.team? o.gk o.team = some m → o.steps < o.m * fmtWidth o.afmt →
        (o.steps + 1) % fmtWidth o.afmt ≠ 0 →
        ∃ t, exec (.arrayStep d k []) s = .next t ∧ t.core d k = { s.core d k with run := some { o with steps := o.steps + 1 } } ∧
          t.ticks = s.ticks + (if o.rep = 0 then 16 else 2 * o.rep) * ticksPerCycle (s.die d).pstate ∧ t.mem = s.mem ∧
          t.warps = s.warps) ∧
      ∀ o, (s.core d k).run = some o → o.steps = o.m * fmtWidth o.afmt →
        ∃ t, exec (.mmulComplete d k) s = .next t ∧ (t.core d k).run = none ∧
          t.ticks = s.ticks + 24 * ticksPerCycle (s.die d).pstate ∧ t.mem = s.mem ∧
          ∀ w, s.warp? o.w = some w →
            t.warp? o.w = some (w.tagDone o.tag (if o.pois then 2 else if o.fails ≠ [] then 5 else 0) 0 o.uid)

/-- For a running EX-mode mmul whose next step ends output row j, with no poison, no failed conversion and no agent waiting to
report, ARRAY_STEP gives each output element of the row the sum over its segments, in order, of two to the sum of the effective
exponents times the exact integer product of the 48 signed elements of the row with the 48 of the column, each added to the
accumulator (zero without ACC) with one f32 rounding. -/
def Obligations.ExactProductsAreExact : Prop :=
  ∀ (s : State) (d k : Nat) (o : MOp) (m : Team) (j : Nat), (s.core d k).run = some o → s.team? o.gk o.team = some m →
    m.die = d → m.core = k → o.rep = 0 → o.fails = [] → j < o.m → o.steps + 1 = (j + 1) * fmtWidth o.afmt →
    0 < fmtWidth o.afmt → s.err.waiting = [] → (∀ q < o.n, (m.column (o.n0 + q)).2 < 320 ∧ (m.column (o.n0 + q)).1 ∈ m.cores) →
    (∀ x ∈ m.cores, 96 * d + x < s.cores.length ∧ (s.core d x).rowBuf.poison = [] ∧ (∀ u ∈ (s.core d x).units, u.scrubbed = []) ∧
      (s.core d x).scale.poison = [] ∧ (s.core d x).acc.poison = []) →
    let sum (n : Nat) (f : Nat → Int) : Int := (List.range n).foldl (fun z i => z + f i) 0
    ∃ t, exec (.arrayStep d k []) s = .next t ∧ ∀ q < o.n,
      let cc := m.column (o.n0 + q)
      let c := s.core d cc.1
      let a (b i : Nat) : Int := sum (fmtWidth o.afmt) (fun p =>
        if (o.plane (s.core d k) j p (48 * b) 48).testBit i then bitWeight (fmtWidth o.afmt) p else 0)
      let v (b i : Nat) : Int := sum (fmtWidth o.bfmt) (fun p =>
        if (c.slice (o.seg0 + b) (fmtWidth o.bfmt) cc.2 p).testBit i then bitWeight (fmtWidth o.bfmt) p else 0)
      t.accVal m (o.mc0 + j) (o.n0 + q) % 2 ^ 32 = ((List.range o.kb).foldl (fun z b =>
        accAdd z (scaledTerm (sum 48 (fun i => a b i * v b i)) 0 ((s.core d k).scaleE (eaAt (o.ma0 + j) b))
          (c.scaleE (ebAt (o.seg0 + b) cc.2)))) ((if o.acc then s.accVal m (o.mc0 + j) (o.n0 + q) else 0, 0) : Enc)).1 % 2 ^ 32

/-- MMODE_C_MODE_POINT with none of the awaited copies in flight, and no store to array memory issued and unperformed, puts the
team's macros in storage mode into compute residence, recording their poisoned granules, and waits while one is in flight;
MMODE_C_UNPARK, after 384 cycles and 4 for each macro after the first, ends the instance and unparks the arrived entries;
MMODE_S_VERIFY with no mmul of the team left does so after 384 cycles with the macros in residence back in storage mode, and a
tag that an mmul of a macro with errors completed reads SUSPECT; MCAL_COMPLETE does so after 20,000 cycles with the cores
calibrated, or fails the team, where nothing keeps it from ending, when a macro of the leader core, or of a follower numbered
from 40 on, fails its self-test. The numbers from 40 on (log entry 30) and the wait for stores to array memory (log entry 65)
are the model's. -/
def Obligations.ModePointsArePassed : Prop :=
  ∀ (s : State) (gk idx : Nat) (m : Team), s.team? gk idx = some m → s.err.waiting = [] →
    let unit (s : State) (k p : Nat) (u : CimUnit) : Prop := k ∈ m.cores ∧ (s.core m.die k).units[p]? = some u ∧
      u.owner = some (gk, idx)
    let unparks (t : State) : Prop := t.team? gk idx = some { m with mode := .idle } ∧
      ∀ w ∈ s.teamWarps gk idx, Between s w → w.window = none →
        t.warp? w.uid = some { w with front := unpark w.front (fun e => e.park == .mode), held := unpark w.held (fun e => e.park == .mode) }
    let takes (t : State) (n : Nat) : Prop := t.ticks = s.ticks + n * ticksPerCycle (s.die m.die).pstate
    (∀ l, m.mode = .cWait l →
      ((∀ u ∈ l, s.copy? u = none) →
        (∀ w ∈ s.allWarps, (∀ x ∈ w.sent, x.space = .global) ∧ ∀ v, w.window = some v → ∀ x ∈ v.buf, x.space = .global) → ∃ t, exec (.mmodeCModePoint gk idx) s = .next t ∧ t.mem = s.mem ∧ t.warps = s.warps ∧
        t.team? gk idx = some { m with mode := .cStart } ∧
        ∀ k p u, unit s k p u →
          ∃ u', unit t k p u' ∧ (u.mode ≠ .storage → u' = u) ∧
            (u.mode = .storage → u' = { u with mode := .compute, soft := [], ldaErr := [], readers := [], scrubbed := u'.scrubbed } ∧
              ∀ g, g ∈ u'.scrubbed ↔ g < 1536 ∧ 1536 * p + g ∈ (s.core m.die k).arrPoison)) ∧
      ((∃ u ∈ l, s.copy? u ≠ none) → exec (.mmodeCModePoint gk idx) s = .next s)) ∧
    (m.mode = .cStart → ∃ t, exec (.mmodeCUnpark gk idx) s = .next t ∧ takes t (384 + 4 * (m.units - 1)) ∧ unparks t ∧
      t.mem = s.mem ∧ t.cores = s.cores) ∧
    (m.mode = .sWait →
      let busy : Prop := ∃ k ∈ m.cores, ∃ o ∈ (s.core m.die k).mq ++ (s.core m.die k).run.toList, o.gk = gk ∧ o.team = idx
      (busy → exec (.mmodeSVerify gk idx) s = .next s) ∧
      (¬ busy → (∀ k p u, unit s k p u → u.mode = .compute → (s.core m.die k).verifyErrs p u = []) →
        ∃ t, exec (.mmodeSVerify gk idx) s = .next t ∧ takes t 384 ∧ unparks t ∧ t.mem = s.mem ∧
          ∀ k p u, unit s k p u → unit t k p
            (if u.mode = .compute then { u with mode := .storage, scrubbed := [], ldaErr := [], readers := [] } else u)) ∧
      (¬ busy → State.Calm s → ∀ k p u w (i st : Nat) b op, unit s k p u → u.mode = .compute →
        (s.core m.die k).verifyErrs p u ≠ [] → Between s w → (w.uid, op) ∈ u.readers → w.tags[i]? = some (TagSt.done st b op) →
        ∃ t w', exec (.mmodeSVerify gk idx) s = .next t ∧ t.warp? w.uid = some w' ∧ w'.tags[i]? = some (TagSt.done 4 b op))) ∧
    (m.mode = .cal → m.due = none →
      (∃ t, exec (.mcalComplete gk idx []) s = .next t ∧ takes t 20000 ∧ unparks t ∧ t.mem = s.mem ∧
        ∀ k ∈ m.cores, 96 * m.die + k < s.cores.length →
          t.core m.die k = { s.core m.die k with calTemp := (s.core m.die k).temp, bandOut := false }) ∧
      ∀ k p u bad, unit s k p u → p + (if k = m.core then 0 else 40) ∈ bad → (∀ x y v, unit s x y v → v.mode ≠ .compute) →
        s.errRoom m.die = true → s.canClose m = true → m.st = .running →
        ∃ t m', exec (.mcalComplete gk idx bad) s = .next t ∧ t.team? gk idx = some m' ∧ m'.st = .failed)

/-- In a package that is up, in which every home is idle and no warp speculates: PAGE_WALK of a page that no TLB of the core or
die holds installs in the core's TLB the translation that the three levels of tables give a small page, or notes one fault where
the address space has no tables; FAULT_RECORD_ENTER writes the 16 bytes of the oldest fault not entered at the tail of a queue
with space, moves the tail and touches no other byte; FRES_RESOLVED, FRES_UNRESOLVABLE and FRES_BACKING_FAILED end the
outstanding fault and make the waiting entry selectable from the next run, with the failure it is to meet. The queue full at
tail + 1 = head and its index modulo 4,096 are the model's reading (log entry 12). -/
def Obligations.FaultsAreWalkedAndAnswered : Prop :=
  ∀ s : State, s.up = true → State.HomesIdle s → (∀ x ∈ s.allWarps, x.window = none) →
    (∀ (d k asid page : Nat) (acc : Access), page < 2 ^ 39 → d < s.dies.length → 96 * d + k < s.cores.length →
      (∀ e ∈ (s.core d k).tlb ++ (s.die d).l2tlb, e.covers asid (65536 * page) = false) →
      let root := s.mmu.atbase.toNat + 16 * asid
      (∀ p2 p1 p0 frame v : Nat, p2 % 65536 = 0 → p1 % 65536 = 0 → p0 % 65536 = 0 → frame % 65536 = 0 →
        p2 < 2 ^ 52 → p1 < 2 ^ 52 → p0 < 2 ^ 52 → frame < 2 ^ 52 → v < 16 →
        Memory.value s.mem root 8 = p2 + 1 → Memory.value s.mem (root + 8) 8 = 0 →
        Memory.value s.mem (p2 + 8 * (page / 2 ^ 26)) 8 = p1 + 1 →
        Memory.value s.mem (p1 + 8 * (page / 2 ^ 13 % 2 ^ 13)) 8 = p0 + 1 →
        Memory.value s.mem (p0 + 8 * (page % 2 ^ 13)) 8 = frame + 3 + 4 * v →
        ∃ t, exec (.pageWalk d k asid page acc) s = .next t ∧ t.mem = s.mem ∧ t.mmu = s.mmu ∧
          let x : TlbEntry := ⟨asid, page, false, frame, v.testBit 0, v.testBit 1, v.testBit 2, v.testBit 3⟩
          (t.core d k).tlb.head? = some x) ∧
      (Memory.value s.mem root 8 % 2 = 0 →
        let new : List PageFault := [⟨asid, page, acc, 0, false, k, d, false, false, []⟩]
        ∃ t, exec (.pageWalk d k asid page acc) s = .next t ∧ t.mem = s.mem ∧ t.cores.map (·.tlb) = s.cores.map (·.tlb) ∧
          ((∀ x ∈ s.mmu.faults, ¬(x.asid = asid ∧ x.page = page ∧ x.mig = false)) →
            t.mmu = { s.mmu with faults := s.mmu.faults ++ new }) ∧
          ((∃ x ∈ s.mmu.faults, x.asid = asid ∧ x.page = page ∧ x.mig = false) → t.mmu = s.mmu))) ∧
    (∀ f rest, s.mmu.faults = f :: rest → f.entered = false → f.mig = false → s.posted = [] →
      (∀ x ∈ rest, ¬(x.asid = f.asid ∧ x.page = f.page)) →
      let tail := s.mmu.fqtail.toNat
      let a := s.mmu.fqbase.toNat + 16 * (tail % 4096)
      let code : Nat := match f.acc with | .read => 0 | .write => 1 | .execute => 2 | .atomic => 3
      ((tail + 1) % 4096 ≠ s.mmu.fqhead.toNat % 4096 → ∃ t, exec .faultRecordEnter s = .next t ∧
        Memory.value t.mem a 8 = (65536 * f.page + f.asid) % 2 ^ 64 ∧
        Memory.value t.mem (a + 8) 8 = (code + 4 * f.source + 32 * f.malformed.toNat + 256 * f.core + 65536 * f.die) % 2 ^ 64 ∧
        (∀ q, q < a ∨ a + 16 ≤ q → Memory.read t.mem q = Memory.read s.mem q) ∧
        t.mmu.fqtail.toNat = (tail + 1) % 4096 ∧ t.mmu.faults = { f with entered := true } :: rest) ∧
      ((tail + 1) % 4096 = s.mmu.fqhead.toNat % 4096 → exec .faultRecordEnter s = .next s)) ∧
    ∀ (f : PageFault) (w : Warp) (e : FEntry) (addr : DWord) (fetch : Bool), f ∈ s.mmu.faults → f.mig = false →
      (∀ x ∈ s.mmu.faults, x.page = f.page → x.asid = f.asid → x = f) → f.waiters = [.warp w.uid] → Between s w →
      w.window = none → w.heldTraps = [] → w.held = [] → w.front = [e] → e.park = .page f.page f.asid addr fetch false →
      let answers (i : Instr) (x : List (Mask × Nat × DWord)) : Prop := ∃ t, exec i s = .next t ∧
        t.warp? w.uid = some { w with front := [{ e with park := .nextRun, pfail := e.pfail ++ x }] } ∧
        (∀ y, y ∈ t.mmu.faults ↔ y ∈ s.mmu.faults ∧ y ≠ f) ∧ t.mem = s.mem ∧ ∀ u, u ≠ w.uid → t.warp? u = s.warp? u
      answers (.fresResolved f.page f.asid) [] ∧
      answers (.fresUnresolvable f.page f.asid) [(e.mask, if fetch then 2 else 0, addr)] ∧
      answers (.fresBackingFailed f.page f.asid) [(e.mask, if fetch then 2 else 1, addr)]

/-- SHOOTDOWN_PAGE, SHOOTDOWN_ASID and SHOOTDOWN_ALL, with none in progress in a calm package that is up, remove from every TLB
the matching entries and no other, and else wait; SHOOTDOWN_COMPLETE with no access under way ends the shootdown.
MIGRATION_COMMAND_TAKE of an acceptable command makes the leaf entry invalid and migrating, moves the head and starts a
shootdown of the page, and of a refused one writes status 2; MIGRATION_COMPLETE, the shootdown over and neither frame held,
copies the frame and maps it with status 1, or, on an error or where a frame is not populated, restores the entry with status 3.
Restoring the entry (log entry 49) and the head modulo 1,024 (log entry 12) are the model's reading. -/
def Obligations.TranslationsAreShotDownAndPagesMoved : Prop :=
  ∀ s : State, s.up = true → s.cur = none → s.snooped = none → State.Calm s →
    (∀ asid page : Nat,
      let shoots (i : Instr) (c : Nat × Nat × Nat) (gone : TlbEntry → Prop) : Prop :=
        (s.mmu.sdNow = none → ∃ t, exec i s = .next t ∧ t.mem = s.mem ∧ t.warps = s.warps ∧
          t.mmu = { s.mmu with sdNow := some c } ∧
          (∀ d k x, x ∈ (t.core d k).tlb ↔ x ∈ (s.core d k).tlb ∧ ¬ gone x) ∧
          ∀ d x, x ∈ (t.die d).l2tlb ↔ x ∈ (s.die d).l2tlb ∧ ¬ gone x) ∧
        (s.mmu.sdNow ≠ none →
          exec i s = .next { s with mmu := { s.mmu with sdQueue := s.mmu.sdQueue ++ [c] } })
      shoots (.shootdownPage page asid) (0, page, asid) (fun x => x.covers asid (65536 * page) = true) ∧
      shoots (.shootdownAsid asid) (1, 0, asid) (fun x => x.asid = asid) ∧
      shoots .shootdownAll (2, 0, 0) (fun _ => True)) ∧
    (∀ c, s.mmu.sdNow = some c → s.mmu.sdQueue = [] → (∀ w ∈ s.warps, w.sent = [] ∧ w.loads = [] ∧ w.cmpWait = false) →
      (∀ k ∈ s.cores, ∀ c ∈ k.copies, c.out = []) →
      exec .shootdownComplete s = .next { s with mmu := { s.mmu with sdNow := none } }) ∧
    (s.mmu.mqhead ≠ s.mmu.mqtail → s.mmu.migs.length < 8 →
      let h := s.mmu.mqhead.toNat % 1024
      let a := s.mmu.mqbase.toNat + 32 * h
      let w0 := Memory.value s.mem a 8
      let dest := Memory.value s.mem (a + 8) 8
      let page := w0 / 2 ^ 16 % 2 ^ 39
      let asid := w0 % 2 ^ 14
      (∀ pte, w0 / 2 ^ 14 % 4 = 0 → s.migRefused asid page dest = false → pteSlot s asid (65536 * page) = some pte →
        s.mmu.sdNow = none →
        let v := Memory.value s.mem pte 8
        ∃ t m, exec .migrationCommandTake s = .next t ∧ Memory.value t.mem pte 8 = v - 1 + (if v.testBit 6 then 0 else 2 ^ 6) ∧
          (∀ q, q < pte ∨ pte + 8 ≤ q → Memory.read t.mem q = Memory.read s.mem q) ∧
          t.mmu.mqhead.toNat = (h + 1) % 1024 ∧ t.mmu.migs = s.mmu.migs ++ [m] ∧ m.slot = a ∧ m.asid = asid ∧ m.page = page ∧
          m.old = v / 2 ^ 16 % 2 ^ 36 * 2 ^ 16 ∧ m.new = dest / 2 ^ 16 % 2 ^ 36 * 2 ^ 16 ∧ m.pte = pte ∧
          t.mmu.sdNow = some (0, page, asid)) ∧
      (w0 / 2 ^ 14 % 4 ≠ 0 ∨ s.migRefused asid page dest = true → ∃ t, exec .migrationCommandTake s = .next t ∧
        Memory.value t.mem (a + 16) 8 = 2 ∧ t.mmu.mqhead.toNat = (h + 1) % 1024 ∧ t.mmu.migs = s.mmu.migs ∧
        ∀ q, q < a + 16 ∨ a + 24 ≤ q → Memory.read t.mem q = Memory.read s.mem q)) ∧
    ∀ m, Memory.wf s.mem = true → s.mmu.migs = [m] → s.mmu.sdNow = none → s.mmu.sdQueue = [] → s.mmu.faults = [] →
      m.old % 65536 = 0 → m.new % 65536 = 0 → m.old ≠ m.new → m.old < 2 ^ 52 → m.new < 2 ^ 52 →
      (∀ f ∈ [m.old, m.new], (m.pte + 8 ≤ f ∨ f + 65536 ≤ m.pte) ∧ (m.slot + 24 ≤ f ∨ f + 65536 ≤ m.slot)) →
      (m.pte + 8 ≤ m.slot + 16 ∨ m.slot + 24 ≤ m.pte) →
      ∀ flags < 2 ^ 6, flags % 2 = 0 → Memory.value s.mem m.pte 8 = m.old + flags + 2 ^ 6 →
      ∀ ok : Bool, let done : Bool := ok && s.populated m.old && s.populated m.new
        ∃ t, exec (.migrationComplete m.uid ok) s = .next t ∧ t.mmu.migs = [] ∧
        Memory.value t.mem m.pte 8 = (if done then m.new else m.old) + flags + 1 ∧
        Memory.value t.mem (m.slot + 16) 8 = (if done then 1 else 3) ∧
        ∀ q, (q < m.pte ∨ m.pte + 8 ≤ q) → (q < m.slot + 16 ∨ m.slot + 24 ≤ q) →
          Memory.read t.mem q = if done = true ∧ m.new ≤ q ∧ q < m.new + 65536
            then Memory.read s.mem (m.old + (q - m.new)) else Memory.read s.mem q

/-- In a package in which no warp speculates and no posted store is in flight: where a line is open, nobody waits for it, no
host has changed it, a tracker is free and there is room: RDS gives the requester the line in E where nobody holds it and it is
neither the home nor H, else in S, with an owner at the home becoming O, or S from E; for a requester other than the home an
owner elsewhere is waited for; a grant to a holder other than the home keeps the home busy until CMPACK, which frees the tracker
once no acknowledgement is awaited. Where the line is not open RDS joins its queue. RETRY joins the retry list where every
tracker is busy, and RTYGNT gives its head a place in the queue of its line. OWNH and HOST_EXCLUSIVE_HALF take the half in HM
after every die has lost the line; HOST_READ_HALF takes it in HS. No byte of memory changes. -/
def Obligations.HomesGrantCopies : Prop :=
  ∀ (s : State) (line : Nat), s.posted = [] → (s.line line).st.length = 5 → (s.line line).halves.length = 2 →
    (s.line line).asked.length = 2 → (s.line line).narrow = [] → (∀ w ∈ s.allWarps, w.window = none) →
    let r := s.line line
    let home := s.homeDie (line * 128)
    let same (t : State) : Prop := (∀ g, (t.line line).of g = r.of g) ∧ t.mem = s.mem
    let list (a : State) (d i : Nat) : List (Nat × HomeReq) := (a.slice d i).retry
    let i0 := homeSlice (line * 128)
    let opens : Prop := s.populated (128 * line) = true ∧ r.isOpen = true ∧ r.queue = [] ∧ s.trackerFree line = true
    let asks (h : Holder) : Prop := s.holderOk h = true ∧ s.populated (128 * line) = true ∧ r.of h = .i ∧ r.busy ≠ some h
    (∀ h : Holder, asks h → Half.hm ∉ r.halves → s.noRoom h.val line = false → r.owner ≠ some 4 → opens →
      let after (t : State) : Prop := t.mem = s.mem ∧ (t.line line).busy = if h.val = home then none else some h
      (r.owner = none → ∃ t, exec (.rds h line) s = .next t ∧ after t ∧
        (t.line line).of h = (if r.holders = [] ∧ h.val ≠ home ∧ h ≠ 4 then .e else .s) ∧
        ∀ g, g ≠ h.val → (t.line line).of g = r.of g) ∧
      ∀ x, r.owner = some x →
        (x = home ∨ h.val = home → ∃ t, exec (.rds h line) s = .next t ∧ after t ∧ (t.line line).of h = .s ∧
          (t.line line).of x = (if r.of x = .e then .s else .o) ∧ ∀ g, g ≠ h.val → g ≠ x → (t.line line).of g = r.of g) ∧
        (x ≠ home → h.val ≠ home → ∃ t, exec (.rds h line) s = .next t ∧ after t ∧ same t)) ∧
    (∀ h : Holder, asks h → r.isOpen = false → s.trackerFree line = true → (line, .rds h) ∉ list s home i0 →
      ∃ t, exec (.rds h line) s = .next t ∧ HomeReq.rds h ∈ (t.line line).queue ∧ same t) ∧
    (∀ h : Holder, r.busy = some h → r.of h ≠ .i → ∃ t, exec (.cmpack h line) s = .next t ∧
      t.line line = { r with busy := none } ∧ t.mem = s.mem ∧
      (r.acks = [] → s.lines.Pairwise (fun a b => a.line ≠ b.line) → t.trackers home i0 + 1 = s.trackers home i0)) ∧
    (∀ h : Holder, asks h → s.trackerFree line = false → .rds h ∉ r.queue → (line, .rds h) ∉ list s home i0 → home < s.dies.length →
      ∃ t, exec (.retry h line) s = .next t ∧ list t home i0 = list s home i0 ++ [(line, .rds h)] ∧ t.lines = s.lines ∧
        t.mem = s.mem) ∧
    (∀ (d i : Nat) (q : HomeReq) (rest : List (Nat × HomeReq)), d < s.dies.length → list s d i = (line, q) :: rest →
      s.trackers d i < 64 → ∃ t, exec (.rtygnt d i) s = .next t ∧ list t d i = rest ∧
        (∀ e j, e ≠ d ∨ j ≠ i → list t e j = list s e j) ∧ t.line line = { r with queue := r.queue ++ [q] } ∧ t.mem = s.mem) ∧
    ∀ half < 2, s.hostPort = true → opens →
      (r.halves.getD half .hi ≠ .hm → (s.filterRoom line).waits = false → ∀ i ∈ [Instr.ownh line half, .hostExclusiveHalf line half],
        ∃ t, exec i s = .next t ∧ (∀ d < 4, (t.line line).of d = .i) ∧ (t.line line).of 4 = .m ∧
          (t.line line).halves = r.halves.set half .hm ∧ t.mem = s.mem) ∧
      (r.halves.getD half .hi = .hi → s.noRoom 4 line = false →
        ∃ t, exec (.hostReadHalf line half) s = .next t ∧ (t.line line).halves = r.halves.set half .hs ∧
          (t.line line).of 4 = (if Half.hm ∈ r.halves then .m else .s) ∧ t.mem = s.mem ∧
          ∀ x, r.of 4 = .i → r.owner = some x → (t.line line).of x = if r.of x = .e then .s else .o)

/-- In a package in which no warp speculates and no posted store is in flight, where a line has no operation and no lock: SNPINV
and SNPINVD make a C-die lose its copy and acknowledge, and SNPFWD an owner share with the busy requester, or give up what it is
writing back; SNPPASS moves the home's ownership to the lowest die that shares, M if alone and O otherwise; EVE and WBD drop an
evicted copy, WBD by way of the write-back buffer where the home is not open; ACK and DATA take one acknowledgement off, and
DATA poisons the granules marked, with records that enter the error ring or wait for it (log entry 17). A host's write-back, by
WBD, HOST_WRITEBACK_HALF or HOST_BI_RESPONSE, writes its 64 bytes and gives the half up or, after a read, keeps it clean;
HOST_BI_TIMEOUT poisons the halves held in HM and gives them and the unanswered ones up; once no half is asked for H has
acknowledged. No other byte of memory changes, but for records in the error ring. -/
def Obligations.HoldersGiveLinesUp : Prop :=
  ∀ (s : State) (line : Nat), s.posted = [] → (s.line line).st.length = 5 → (s.line line).halves.length = 2 →
    (s.line line).asked.length = 2 → (s.line line).narrow = [] → (∀ w ∈ s.allWarps, w.window = none) →
    let r := s.line line
    let home := s.homeDie (line * 128)
    let same (t : State) : Prop := (∀ g, (t.line line).of g = r.of g) ∧ t.mem = s.mem
    let gone (t : State) (h : Nat) : Prop := (t.line line).of h = .i ∧ (∀ g, g ≠ h → (t.line line).of g = r.of g) ∧ t.mem = s.mem
    let can (h : Holder) : Prop := s.holderOk h = true ∧ r.busy = none ∧ r.lock = none ∧
      (r.snooping h = true ∨ s.snoopsOut h line < 8)
    let waits (i : Instr) : Prop := ∃ t, exec i s = .next t ∧ (4 : Holder) ∈ (t.line line).acks ∧ same t
    (∀ h : Holder, h ≠ 4 →
      (can h → r.of h ≠ .m → r.of h ≠ .o → ∃ t, exec (.snpinv h line) s = .next t ∧ gone t h ∧ h ∈ (t.line line).acks) ∧
      (r.owner = some h.val → h.val ≠ home →
        (can h → ∃ t, exec (.snpinvd h line) s = .next t ∧ gone t h ∧ h ∈ (t.line line).acks) ∧
        ∀ g : Holder, r.busy = some g → r.of g = .i → g ≠ h → s.noRoom g.val line = false →
          ∃ t, exec (.snpfwd h line g) s = .next t ∧ (t.line line).of g = .s ∧
            (t.line line).of h = (if h ∈ r.wb then .i else if r.of h = .e then .s else .o) ∧ t.mem = s.mem) ∧
      (r.isOpen = true → s.trackerShut line = false →
        let alone : Prop := h.val = home → ∀ d < 4, d ≠ home → r.of d ≠ .s
        (r.of h = .e → alone → ∃ t, exec (.eve h line) s = .next t ∧ gone t h) ∧
        (r.of h = .m ∨ r.of h = .o → h ∉ r.wb → alone → ∃ t, exec (.wbd h line none) s = .next t ∧ gone t h) ∧
        (h ∈ r.wb → ∃ t, exec (.wbd h line none) s = .next t ∧ h ∉ (t.line line).wb ∧
          (r.of h = .m ∨ r.of h = .o → gone t h) ∧ (r.of h ≠ .m → r.of h ≠ .o → same t)) ∧
        (r.of home = .m ∨ r.of home = .o → h.val ≠ home → r.of h = .s → (∀ d < h.val, d ≠ home → r.of d ≠ .s) →
          ∃ t, exec (.snppass h line) s = .next t ∧ (t.line line).of home = .i ∧ t.mem = s.mem ∧
            ((∀ g < 5, g ≠ home → g ≠ h.val → r.of g = .i) → (t.line line).of h = .m) ∧
            ((∃ g < 5, g ≠ home ∧ g ≠ h.val ∧ r.of g ≠ .i) → (t.line line).of h = .o))) ∧
      (r.isOpen = false → r.engine = none → r.of h = .m ∨ r.of h = .o → h.val ≠ home → h ∉ r.wb →
        ∃ t, exec (.wbd h line none) s = .next t ∧ (t.line line).wb = r.wb ++ [h] ∧ same t)) ∧
    (can 4 → r.halves ≠ [.hi, .hi] → (r.of 4 ≠ .m → r.of 4 ≠ .o → waits (.snpinv 4 line)) ∧
      (r.owner = some 4 → home ≠ 4 → waits (.snpinvd 4 line))) ∧
    (∀ h : Holder, (h ≠ 4 ∨ r.halves = [.hi, .hi]) →
      (∃ t, exec (.ack h line) s = .next t ∧ t.line line = { r with acks := r.acks.filter (· != h) } ∧ t.mem = s.mem) ∧
      ∀ p : BitVec 16, h ∈ r.acks →
        let ring : Nat := s.err.eqbase.toNat
        ((∀ i < 16, p.getLsbD i = true → 16 * line + i ∈ s.poison) ∨ s.errFull = true ∨ s.err.order ≠ [] →
          ∃ t, exec (.data h line p) s = .next t ∧ t.line line = { r with acks := r.acks.filter (· != h) } ∧ t.mem = s.mem ∧
            ∀ g, g ∈ t.poison ↔ g ∈ s.poison ∨ ∃ i < 16, p.getLsbD i = true ∧ g = 16 * line + i) ∧
        (128 * line + 128 ≤ ring ∨ ring + 2 ^ 19 ≤ 128 * line →
          ∃ t, exec (.data h line p) s = .next t ∧ h ∉ (t.line line).acks ∧ (∀ i < 16, p.getLsbD i = true → 16 * line + i ∈ t.poison) ∧
            ∀ q, q < ring ∨ ring + 2 ^ 19 ≤ q → Memory.read t.mem q = Memory.read s.mem q)) ∧
    (∀ i < 2,
      let done (t : State) : Prop := (∀ x ∈ r.asked.set i none, x = none) → (4 : Holder) ∉ (t.line line).acks
      (∀ data : List Byte, r.halves.getD i .hi = .hm → data.length = 64 →
        let merged (x : Instr) (v : Half) : Prop := ∃ t, exec x s = .next t ∧ (t.line line).halves = r.halves.set i v ∧ done t ∧
          ∀ q, Memory.read t.mem q = if 128 * line + 64 * i ≤ q ∧ q < 128 * line + 64 * i + 64
            then data.getD (q - (128 * line + 64 * i)) 0 else Memory.read s.mem q
        merged (.wbd 4 line (some (i, data))) .hi ∧ merged (.hostWritebackHalf line i data) .hi ∧
          (∀ n, r.asked.getD i none = some (false, n) → merged (.hostBiResponse line i data true) .hs) ∧
          ∀ n, r.asked.getD i none = some (true, n) → merged (.hostBiResponse line i data false) .hi) ∧
      ∀ (data : List Byte) (a : Bool × Nat), r.halves.getD i .hi = .hs → r.asked.getD i none = some a →
        ∃ t, exec (.hostBiResponse line i data false) s = .next t ∧ (t.line line).halves = r.halves.set i .hi ∧ done t ∧
          t.mem = s.mem) ∧
    let slot : Nat := s.err.eqbase.toNat + 128 * (s.err.eqtail.toNat % 4096)
    ((∃ i < 2, r.asked.getD i none ≠ none) → s.errRoom 7 = true → slot + 128 ≤ 128 * line ∨ 128 * line + 128 ≤ slot →
      ∃ t, exec (.hostBiTimeout line) s = .next t ∧ (4 : Holder) ∉ (t.line line).acks ∧
        ∀ i < 2, (r.asked.getD i none = none → r.halves.getD i .hi ≠ .hm → (t.line line).halves.getD i .hi = r.halves.getD i .hi) ∧
          (r.asked.getD i none ≠ none ∨ r.halves.getD i .hi = .hm → (t.line line).halves.getD i .hi = .hi) ∧
          (r.halves.getD i .hi = .hm → ∀ j < 8, 16 * line + 8 * i + j ∈ t.poison))

/-- In a package with no instruction under way, no posted store in flight, and no warp speculating or in a transaction but the
one named: WRP performs a warp's oldest plain store that no other store of its instruction and line goes with, and it waits for
CMP, puts a posted one that waited in flight, or writes another agent's bytes to a line; ATM applies an atomic's value; TXLK
locks the next line of a lane at its txe if what it read there still stands, leaves one locked for that txe as it is, and aborts
the lane with CONFLICT otherwise; TXWR, all lines of the one lane at the txe locked, writes all its bytes and unlocks them where
what it read still stands, and aborts it otherwise; OWN grants a copy its next line in row order or has it wait; WRF and RECALL
write the owner's bytes of a line and release it; ADDL applies the next line of a drain with add, or has it wait for the line.
No other byte of memory changes. One TXWR for all the lines of a transaction (log entry 45), and reading for WRF what comes
before the line in row order (log entry 28), are the model's. -/
def Obligations.WritesTakeTheirPlace : Prop :=
  ∀ s : State, s.cur = none → s.snooped = none → s.posted = [] →
    let last (l : List Host.Cell) (q : Nat) : Option Byte := l.foldl (fun o c => if c.1 = q then some c.2 else o) none
    let wrote (t : State) (l : List Host.Cell) : Prop := ∀ q, Memory.read t.mem q = (last l q).getD (Memory.read s.mem q)
    let cells (pa : Nat) (bs : List Byte) : List Host.Cell := bs.zipIdx.map (fun x => (pa + x.2, x.1))
    (∀ w st rest, Between s w → State.Calm s → w.sent = st :: rest → w.loads = [] → w.cmpWait = false → st.spawn = none →
      (st.posted = false → (∀ x ∈ rest, x.posted = false ∧ st.with x = false) →
        (st.space = .global → ∃ t, exec (.wrp (.warp w.uid)) s = .next t ∧ t.warp? w.uid = some { w with sent := rest, cmpWait := true } ∧
          wrote t (cells st.addr st.bytes) ∧ t.posted = []) ∧
        ∀ d k, st.space = .array d k → ∃ t, exec (.wrp (.warp w.uid)) s = .next t ∧ t.warp? w.uid = some { w with sent := rest } ∧
          t.mem = s.mem ∧ (96 * d + k < s.cores.length → ∀ i < st.bytes.length,
            (t.core d k).arrayByte (st.addr + i) = st.bytes.getD i 0)) ∧
      (st.posted = true → rest = [] → st.space = .global →
        ∃ t p, exec (.wrp (.warp w.uid)) s = .next t ∧ t.warp? w.uid = some { w with sent := [] } ∧ t.mem = s.mem ∧
          t.posted = [p] ∧ p.pa = st.addr ∧ p.bytes = st.bytes ∧ p.w = w.uid ∧ p.lane = st.lane)) ∧
    (∀ w, Between s w → ∃ t, exec (.cmp w.uid) s = .next t ∧ t.warp? w.uid = some { w with cmpWait := false } ∧ t.mem = s.mem) ∧
    (∀ a pa bs, State.Calm s → (∀ u L, a ≠ .thread u L) → s.inLine pa bs.length = true →
      ∃ t, exec (.wrp (.agent a pa bs)) s = .next t ∧ wrote t (cells pa bs)) ∧
    (∀ (h : Holder) (k : AtomKind) (pa : Nat) (x y : QWord), State.Calm s → s.holderOk h = true → pa % atomBytes k = 0 →
      s.inLine pa (atomBytes k) = true → s.poisoned pa (atomBytes k) = false →
      let n := atomBytes k
      let v := (atomNew k (Memory.value s.mem pa n) (x.toNat % 2 ^ (8 * n)) (y.toNat % 2 ^ (8 * n))).1
      ∃ t, exec (.atm h k pa x y) s = .next t ∧ wrote t (match v with | none => [] | some z => cells pa (toBytes n z))) ∧
    (∀ w L line, Between s w → (∀ x ∈ s.warps, x.uid ≠ w.uid → x.window = none ∧ x.anyTx = false) → w.window = none →
      L ∈ w.txeLanes → line ∈ (w.lane L).tx.lines →
      let tx := (w.lane L).tx
      let mine (n : Nat) : Prop := ∃ M ∈ w.txeLanes, (s.line n).lock = some (w.uid, M)
      let aborts (i : Instr) : Prop := ∃ t w', exec i s = .next t ∧ t.warp? w.uid = some w' ∧ (w'.lane L).tx.state = .aborted ∧
        (w'.lane L).tx.cause = 1 ∧ t.mem = s.mem
      ((∀ M ∈ w.txeLanes, ∀ n ∈ (w.lane M).tx.lines, n < line → mine n) → s.lineWaits w.uid w.txeLanes L tx line = false →
        (s.line line).narrow = [] →
        ((∀ c ∈ tx.rset, c.1 / 128 = line → Memory.read s.mem c.1 = c.2) →
          (¬ mine line → ∃ t, exec (.txlk w.uid L line) s = .next t ∧ (t.line line).lock = some (w.uid, L) ∧ t.warps = s.warps ∧
            t.mem = s.mem) ∧
          (mine line → exec (.txlk w.uid L line) s = .next s)) ∧
        ((∃ c ∈ tx.rset, c.1 / 128 = line ∧ Memory.read s.mem c.1 ≠ c.2) → aborts (.txlk w.uid L line))) ∧
      (w.txeLanes = [L] → (∀ M, M ≠ L → (w.lane M).txActive = false) →
        (∀ n ∈ tx.lines, (s.line n).lock = some (w.uid, L) ∧ s.lineWaits w.uid w.txeLanes L tx n = false) →
        ((∀ c ∈ tx.rset, Memory.read s.mem c.1 = c.2) →
          ∃ t w', exec (.txwr w.uid L line) s = .next t ∧ wrote t tx.wset ∧ (∀ n ∈ tx.lines, (t.line n).lock = none) ∧
            t.warp? w.uid = some w' ∧ (w'.lane L).tx.state = .committed) ∧
        ((∃ c ∈ tx.rset, Memory.read s.mem c.1 ≠ c.2) → aborts (.txwr w.uid L line)))) ∧
    ∀ c line m, (∀ x ∈ s.warps, x.window = none ∧ x.anyTx = false) → s.copy? c.uid = some c →
      c ∈ (s.core c.die c.core).copies → s.team? c.gk c.team = some m →
      let r := s.line line
      let x := c.carry m s (s.stepsTo c line)
      let y := c.carry m s 1
      let out := c.out ++ x.cells
      let keeps (t : State) (v : Run) (z : Copy) : Prop := z ∈ (t.core c.die c.core).copies ∧ z.uid = c.uid ∧ z.taken = v.taken ∧
        z.bytes = v.bytes
      let list := (s.slice (s.homeDie (line * 128)) (homeSlice (line * 128))).retry
      (c.pending = false → c.refused = false → c.fn.isAdd = false → c.owned.length < 32 → s.nextOwn c = some line →
        s.trackerFree line = true →
        (r.isOpen = true → r.queue = [] → ∃ t, exec (.own c.uid line) s = .next t ∧ (t.line line).engine = some c.uid ∧ t.mem = s.mem ∧
          ∃ y ∈ (t.core c.die c.core).copies, y.uid = c.uid ∧ line ∈ y.owned) ∧
        (r.isOpen = false → (line, .own c.uid) ∉ list →
          ∃ t, exec (.own c.uid line) s = .next t ∧ HomeReq.own c.uid ∈ (t.line line).queue ∧ t.mem = s.mem)) ∧
      (s.copyReady c m = true →
        (x.halt = none → r.engine = some c.uid → c.fn.isAdd = false → s.lineFor c.uid line = true → (∃ b ∈ out, b.1 / 128 = line) →
          ∀ i ∈ [Instr.wrf c.uid line, .recall line], ∃ t z, exec i s = .next t ∧
            wrote t (out.filter (fun b => b.1 / 128 == line)) ∧ (t.line line).engine = none ∧ keeps t x z ∧ line ∉ z.owned) ∧
        (c.fn.isAdd = true → s.addTarget c = some line → y.halt = none →
          (s.lineFor c.uid line = true → s.trackerFree line = true →
            ∃ t z, exec (.addl c.uid line) s = .next t ∧ wrote t y.cells ∧ keeps t y z) ∧
          (s.lineFor c.uid line = false → s.trackerFree line = true → (line, .addl c.uid) ∉ list →
            ∃ t, exec (.addl c.uid line) s = .next t ∧ HomeReq.addl c.uid ∈ (t.line line).queue ∧ t.mem = s.mem)))

/-- In a calm package: a sound new PUT_DATA or ADD_DATA frame whose lines can be reached writes, or adds by words of 8 bytes,
its payload to them, a new GET_REQUEST sends their bytes back in a sound frame that stays out until it is acknowledged, and a
new GET_DATA of a transfer, in its turn, writes locally the lines still to come and counts them; each is acknowledged by a sound
frame and its number noted, and a duplicate PUT_DATA changes no byte. REM_ACKNOWLEDGEMENT takes acknowledged frames out and
confirms their lines. REM_RETRANSMIT sends a frame that is out again after its timeout, which starts at 20 µs and doubles up to
1 ms, or fails its transfer at 16 transmissions or 10 ms after the first; REM_TRANSFER_FAIL completes the tag REMOTE.
LINK_REPLAY counts failed replays in a row, whichever the free value of log entry 46 makes fail, until there are 16;
LINK_RETRAIN then restores the link or raises a package machine check. The order of numbers modulo 2 to the 32, the byte order
of the header, the CRC-32C's parameters and the ports' turns are log entry 53. -/
def Obligations.RemoteLinesAndLinks : Prop :=
  ∀ s : State, s.cur = none → s.snooped = none → State.Calm s →
    (∀ fr : Frame, routeValid (s.net.route fr.src.toNat) = true → (fr.src.toNat, fr.seq) ∉ s.net.refused →
      let src : Nat := fr.src.toNat
      let n : Nat := fr.lines.toNat
      let ra : Nat := fr.ra.toNat
      let rx (t : State) : RxWindow := t.net.rxOf src
      let noted (t : State) : Prop := seqBefore fr.seq (rx t).base = true ∨ fr.seq ∈ (rx t).got
      let fresh : Prop := (fr.seq - (rx s).base).toNat < 4096 ∧ fr.seq ∉ (rx s).got
      let acked (t : State) (l : List SentFrame) : Prop := noted t ∧ ∃ f, t.net.sent = s.net.sent ++ l ++ [f] ∧
        frameSound f.frame 4 = true ∧ f.frame.dst = fr.src ∧ f.frame.cack = (rx t).base
      let byte (i j : Nat) : Byte := fr.payload.getD (128 * i + j) 0
      (∀ (asid : Nat) (pas : Nat → Nat), s.exportOf src fr.asid.toNat = some asid → (∀ i < n, pas i % 128 = 0) →
        (∀ i < n, ∀ j < n, pas i = pas j → i = j) →
        let reached (op : Nat) : Prop := ∀ i < n, s.remoteLine asid (ra + 128 * i) op = (.ok (pas i), s)
        let rest (t : State) : Prop := ∀ q, (∀ i < n, q / 128 ≠ pas i / 128) → Memory.read t.mem q = Memory.read s.mem q
        (s.frameOk fr 0 = true → reached 0 →
          (fresh → ∃ t, exec (.putData fr) s = .next t ∧ acked t [] ∧ rest t ∧
            ∀ i < n, ∀ j < 128, Memory.read t.mem (pas i + j) = byte i j) ∧
          (noted s → ∃ t, exec (.putData fr) s = .next t ∧ acked t [] ∧ t.mem = s.mem)) ∧
        (s.frameOk fr 3 = true → reached 2 → fresh → ∃ t, exec (.addData fr) s = .next t ∧ acked t [] ∧ rest t ∧
          ∀ i < n, ∀ j < 16, Memory.value t.mem (pas i + 8 * j) 8 =
            (Memory.value s.mem (pas i + 8 * j) 8 + valAt (byte i) (8 * j) 8) % 2 ^ 64) ∧
        (s.frameOk fr 1 = true → reached 1 → fresh → ∃ t f, exec (.getRequest fr) s = .next t ∧ t.mem = s.mem ∧ acked t [f] ∧
          frameSound f.frame 2 = true ∧ f.frame.dst = fr.src ∧ f.frame.lines = fr.lines ∧ f.frame.ra = fr.ra ∧ f.frame.xfer = fr.xfer ∧
          (∃ o ∈ t.net.out, o.frame = f.frame ∧ o.owner = none ∧ o.tries = 1) ∧
          ∀ i < n, ∀ j < 128, f.frame.payload.getD (128 * i + j) 0 = Memory.read s.mem (pas i + j))) ∧
      (∀ x c pa first, s.frameOk fr 2 = true → fresh →
        s.net.xfers.find? (fun y => y.id % 2 ^ 32 == fr.xfer.toNat && y.dst == src && y.op == 1) = some x → s.copy? x.copy = some c →
        c.waits = none → ra = x.ra + 128 * first → first ≤ x.confirmed → x.confirmed ≤ first + n →
        (∀ i < 128 * n, ReachesAt s c.die c.core (s.asidOf c.gk) .write (x.la + 128 * first + i) 1 (pa + i)) →
        ∃ t, exec (.getData fr) s = .next t ∧ acked t [] ∧
          (∃ y ∈ t.net.xfers, y.id = x.id ∧ y.confirmed = first + n) ∧
          ∀ q, Memory.read t.mem q = if pa + 128 * (x.confirmed - first) ≤ q ∧ q < pa + 128 * n then fr.payload.getD (q - pa) 0
            else Memory.read s.mem q) ∧
      (s.frameOk fr 4 = true →
        let hit (o : OutFrame) : Prop := o.frame.dst = fr.src ∧ (seqBefore o.frame.seq fr.cack = true ∨
          o.frame.seq ≠ fr.cack ∧ fr.sack.getLsbD ((o.frame.seq - fr.cack).toNat - 1) = true)
        ∃ t, exec (.remAcknowledgement fr) s = .next t ∧ t.mem = s.mem ∧
          (∀ o, o ∈ t.net.out ↔ o ∈ s.net.out ∧ ¬ hit o) ∧
          ∀ x ∈ s.net.xfers, (x.op = 1 → x ∈ t.net.xfers) ∧
            ∀ o, x.op ≠ 1 → s.net.out.filter (fun o => o.owner == some x.id) = [o] → hit o →
              { x with confirmed := x.confirmed + o.frame.lines.toNat } ∈ t.net.xfers)) ∧
    (∀ o, s.net.out.find? (fun y => y.id == o.id) = some o →
      let now := max s.ticks (min (o.last + min (20 * 2 ^ (o.tries - 1)) 1000 * 18000) (o.born + 10000 * 18000))
      (o.tries < 16 → now < o.born + 10000 * 18000 → ∃ t l, exec (.remRetransmit o.id) s = .next t ∧ t.mem = s.mem ∧
        t.ticks = now ∧ { o with tries := o.tries + 1, last := now } ∈ t.net.out ∧ t.net.sent = s.net.sent ++ l ∧
        (routeValid (s.net.route o.frame.dst.toNat) = true → l.map (fun f => f.frame) = [o.frame])) ∧
      ∀ x c, (∀ y ∈ s.net.xfers, y.id = x.id → y = x) → x ∈ s.net.xfers → s.copy? x.copy = some c → s.errRoom 7 = true →
        let fails (i : Instr) : Prop := ∃ t, exec i s = .next t ∧ (∀ y ∈ t.net.xfers, y.copy ≠ c.uid) ∧
          (∀ y ∈ (t.core c.die c.core).copies, y.uid ≠ c.uid) ∧
          ∀ w, s.warp? c.w = some w → t.warp? c.w = some (w.tagDone c.tag 7 (128 * x.confirmed) c.uid)
        (∀ cause, fails (.remTransferFail x.id cause)) ∧
        (o.owner = some x.id → 16 ≤ o.tries ∨ o.born + 10000 * 18000 ≤ now → fails (.remRetransmit o.id))) ∧
    ∀ x y, s.linkOk x y = true →
      ((s.link x y).fails < 16 → ∃ t, exec (.linkReplay x y) s = .next t ∧ t.mem = s.mem ∧
        (t.link x y).fails = (if Config.replayFails s.free then (s.link x y).fails + 1 else 0)) ∧
      (16 ≤ (s.link x y).fails → exec (.linkReplay x y) s = .next s) ∧
      (16 ≤ (s.link x y).fails → (s.link x y).retrained = false →
        (∃ t, exec (.linkRetrain x y true) s = .next t ∧ (t.link x y).fails = 0 ∧ (t.link x y).retrained = false ∧
          t.machineCheck = s.machineCheck ∧ t.mem = s.mem) ∧
        ∃ t, exec (.linkRetrain x y false) s = .next t ∧ (t.link x y).fails = 0 ∧ (t.link x y).retrained = true ∧
          t.machineCheck = true)

/-- At State.reset physical memory is in its canonical form and the package has 384 core records, four die records and 64 launch
queues; no grid, team, warp or posted store exists. What the spec gives no reset value for is the model's (log entry 3), as is
the form (log entry 58). -/
def Obligations.ResetIsInForm : Prop :=
  State.Inv State.reset ∧ State.reset.grids = [] ∧ State.reset.teams = [] ∧ State.reset.allWarps = [] ∧ State.reset.posted = []

/-- If physical memory is in its canonical form and the package has 384 core records, four die records and 64 launch queues, the
same holds of the state after any step that answers a next state, whatever instruction or event it runs. -/
def Obligations.StepsKeepTheForm : Prop :=
  ∀ s t : State, State.Inv s → step s = .next t → State.Inv t

/-- For every well-formed instruction that has words, with every operand at every value its fields admit, decoding its little-
endian bytes followed by any others gives the instruction and the others. -/
def Obligations.EncodedInstructionsDecode : Prop :=
  ∀ (i : Instr) (bs rest : List Byte), i.wellFormed = true → encodeBytes i = some bs → decodeBytes (bs ++ rest) = some (i, rest)

/-- If bytes decode to an instruction with a rest, the instruction is well-formed, it has an encoding, and the bytes are that
encoding followed by the rest. -/
def Obligations.DecodedBytesAreTheEncoding : Prop :=
  ∀ (bs rest : List Byte) (i : Instr), decodeBytes bs = some (i, rest) →
    i.wellFormed = true ∧ ∃ own, encodeBytes i = some own ∧ bs = own ++ rest

/-- Twenty-six words printed in the spec, of the integer, memory, control, synchronisation, copy, matrix and system families and
of the 16-bit form, decode to the instructions printed beside them; ARITH32 with function 7 and the halfword of zeros do not
decode. -/
def Obligations.SpecWordsDecode : Prop :=
  let reads (w : Nat) (i : Instr) : Prop := decodeTableWord 32 w = some i
  reads 0x041202B1 (.ldgB32 (.v 2) (.v 4) 2 false) ∧ reads 0x00960643 (.li (.v 6) 0x12C true) ∧
    decodeTableWord 16 0x3088 = some (.add16 2 6 false) ∧ reads 0xFE0A872D (.addi (.v 7) (.v 2) 0x3FD false) ∧
    reads 0x041107B5 (.stgB32 (.v 7) (.v 4) 2 false) ∧ reads 0x000200A7 (.exit true) ∧
    reads 0xF9F0861D (.cmpNe 6 .z .z false) ∧ reads 0x1C28121B (.addc (.v 18) (.v 10) (.v 14) true) ∧
    reads 0x14210321 (.cmp64LtI 3 (.v 8) (.v 10) false) ∧ reads 0x0A0186FF (.srd (.v 6) .gtid true) ∧
    reads 0x182001F5 (.mmulEx true 8 12 false) ∧ reads 0xFA288B69 (.fsub (.v 11) (.v 10) (.ix 0) false) ∧
    reads 0x400E8283 (.cvt .sr (.v 2) (.v 3) 0x20 true) ∧ reads 0x080D8295 (.shflXor (.v 2) (.v 3) (.v 4) false) ∧
    reads 0xFFFAB49D (.br 0xFFFA true 3 2 false false) ∧ reads 0x0008299D (.br 8 false 2 4 true false) ∧
    reads 0x001878A1 (.call 0x18 false 7 4 false false) ∧ reads 0x184101AB (.spawn 2 1 (.v 16) (.v 12) true) ∧
    reads 0x04198AB9 (.stgpB64 (.v 10) (.v 6) 2 false) ∧ reads 0x001080D9 (.barm (.v 4) false) ∧
    reads 0x000180E1 (.fenceK false) ∧ reads 0x001500E5 (.txa (.v 5) false) ∧ reads 0x003101E9 (.bcpG2rx 12 1 false) ∧
    reads 0x120206ED (.tstat 6 9 false) ∧ reads 0x220E00FD (.swr (.fflags (.v 3)) false) ∧ reads 0x800280FD (.srds 0 .tcause false) ∧
    decodeTableWord 32 0x00038005 = none ∧ decodeTableWord 16 0 = none

/-- In a package that runs, with nothing on the agenda and the issuing warp not waiting, whose selected entry has its halfwords,
which no host holds changed, on pages of the core's TLB that it may execute, in granules that are not poisoned: where bit 0 of
the first halfword that the instruction cache gives is 1, step executes the instruction that the four bytes decode to, else the
one that the two bytes decode to, and ILLEGAL_INSTRUCTION where they decode to none. The state executed in differs in the word
being issued and the instruction cache alone. A line that the instruction cache holds free of poison is given as it was filled,
whatever memory holds now; any other is given as memory has it and kept. What an instruction cache keeps is log entry 35; the
choice of the selected entry while a txe waits is log entry 45. -/
def Obligations.StepRunsTheDecodedInstruction : Prop :=
  (∀ (s : State) (w : Warp) (e : FEntry) (p q : Nat), s.up = true → s.agenda = [] → s.stall = false → s.cur = some w →
    w.selected = some e → e.bad = false → (∀ r ∈ s.lines, Half.hm ∉ r.halves) → Reaches s w .execute e.pc.toNat 2 p →
    let x := s.codeLine w.die w.core p
    let y := x.2.codeLine w.die w.core q
    let lo := [x.1.bytes.getD (p % 128) 0, x.1.bytes.getD (p % 128 + 1) 0]
    let hi := [y.1.bytes.getD (q % 128) 0, y.1.bytes.getD (q % 128 + 1) 0]
    let runs (bs : List Byte) (u : State) : Prop :=
      let word : Word := BitVec.ofNat 32 (leNat bs)
      (∀ i, decodeBytes bs = some (i, []) → step s = exec i { u with insn := word }) ∧
      (decodeBytes bs = none → step s = exec (.illegalInstruction word) { u with insn := word })
    x.1.bad.contains (p / 8) = false →
    ((x.1.bytes.getD (p % 128) 0).getLsbD 0 = false → runs lo x.2) ∧
    ((x.1.bytes.getD (p % 128) 0).getLsbD 0 = true → Reaches s w .execute (e.pc + 2).toNat 2 q → y.1.bad.contains (q / 8) = false →
      runs (lo ++ hi) y.2)) ∧
  ∀ (s : State) (d k p : Nat), 96 * d + k < s.cores.length →
    let x := s.codeLine d k p
    x.2 = { s with cores := x.2.cores } ∧
    (∀ c, (s.core d k).icache = [c] → c.line = p / 128 → p / 8 ∉ c.bad → x = (c, s)) ∧
    ((∀ c ∈ (s.core d k).icache, c.line ≠ p / 128 ∨ p / 8 ∈ c.bad) →
      x.1.bytes.length = 128 ∧ (∀ i < 128, x.1.bytes[i]? = some (Memory.read s.mem (p / 128 * 128 + i))) ∧
      (p / 8 ∈ x.1.bad ↔ p / 8 ∈ s.poison) ∧ x.1 ∈ (x.2.core d k).icache)
end

