-- ==== Sys2Proof/Laws/Encoding.lean ====
section
/-! SUPPORT. What the decoder reads from the words that the encoder writes, field by field (R51, R59, R63, R82). -/
namespace Sys2Proof

@[simp] theorem fullWord_op (c a : BitVec 7) (f : BitVec 3) (d : BitVec 7) (op : BitVec 6) (b : Bool) :
    (fullWord c a f d op b).extractLsb' 2 6 = op := by
  ext i h
  simp only [fullWord, BitVec.getElem_extractLsb', BitVec.getLsbD_append]
  interval_cases i <;> simp

@[simp] theorem fullWord_f (c a : BitVec 7) (f : BitVec 3) (d : BitVec 7) (op : BitVec 6) (b : Bool) :
    (fullWord c a f d op b).extractLsb' 15 3 = f := by
  ext i h
  simp only [fullWord, BitVec.getElem_extractLsb', BitVec.getLsbD_append]
  interval_cases i <;> simp

@[simp] theorem fullWord_d (c a : BitVec 7) (f : BitVec 3) (d : BitVec 7) (op : BitVec 6) (b : Bool) :
    (fullWord c a f d op b).extractLsb' 8 7 = d := by
  ext i h
  simp only [fullWord, BitVec.getElem_extractLsb', BitVec.getLsbD_append]
  interval_cases i <;> simp

@[simp] theorem fullWord_a (c a : BitVec 7) (f : BitVec 3) (d : BitVec 7) (op : BitVec 6) (b : Bool) :
    (fullWord c a f d op b).extractLsb' 18 7 = a := by
  ext i h
  simp only [fullWord, BitVec.getElem_extractLsb', BitVec.getLsbD_append]
  interval_cases i <;> simp

@[simp] theorem fullWord_c (c a : BitVec 7) (f : BitVec 3) (d : BitVec 7) (op : BitVec 6) (b : Bool) :
    (fullWord c a f d op b).extractLsb' 25 7 = c := by
  ext i h
  simp only [fullWord, BitVec.getElem_extractLsb', BitVec.getLsbD_append]
  interval_cases i <;> simp

@[simp] theorem fullWord_b (c a : BitVec 7) (f : BitVec 3) (d : BitVec 7) (op : BitVec 6) (b : Bool) :
    (fullWord c a f d op b).getLsbD 1 = b := by
  simp only [fullWord, BitVec.getLsbD_append]; simp

@[simp] theorem fullWord_l (c a : BitVec 7) (f : BitVec 3) (d : BitVec 7) (op : BitVec 6) (b : Bool) :
    (fullWord c a f d op b).getLsbD 0 = true := by
  simp only [fullWord, BitVec.getLsbD_append]; simp

theorem leNat_leBytes (v n : Nat) : leNat (leBytes v n) = v % 256 ^ n := by
  induction n generalizing v with
  | zero => simp [leNat, leBytes, Nat.mod_one]
  | succ n ih => simp [leNat, leBytes, ih, BitVec.toNat_ofNat, Nat.pow_succ', Nat.mod_mul]

theorem decodeBytes_word (w : Word) (h : w.getLsbD 0 = true) (rest : List Byte) :
    decodeBytes (leBytes w.toNat 4 ++ rest) = (decodeWord w).map fun i => (i, rest) := by
  have e : BitVec.ofNat 32 (leNat (leBytes w.toNat 4)) = w := by
    rw [leNat_leBytes]; exact BitVec.eq_of_toNat_eq (by simp; omega)
  have h0 : (BitVec.ofNat 8 w.toNat).getLsbD 0 = true := by
    rw [BitVec.getLsbD_ofNat]; simpa [BitVec.getLsbD] using h
  simp only [leBytes] at e ⊢
  simp only [List.cons_append, List.nil_append, decodeBytes, h0, if_true, e]

theorem decodeBytes_half (w : BitVec 16) (h : w.getLsbD 0 = false) (rest : List Byte) :
    decodeBytes (leBytes w.toNat 2 ++ rest) = (decodeHalfWord w).map fun i => (i, rest) := by
  have e : BitVec.ofNat 16 (leNat (leBytes w.toNat 2)) = w := by
    rw [leNat_leBytes]; exact BitVec.eq_of_toNat_eq (by simp; omega)
  have h0 : (BitVec.ofNat 8 w.toNat).getLsbD 0 = false := by
    rw [BitVec.getLsbD_ofNat]; simpa [BitVec.getLsbD] using h
  simp only [leBytes] at e ⊢
  simp only [List.cons_append, List.nil_append, decodeBytes, h0, Bool.false_eq_true, if_false, e]

theorem decodeWord_full (c a : BitVec 7) (f : BitVec 3) (d : BitVec 7) (op : BitVec 6) (b : Bool) (i : Instr) (h : decodeMajor op f d a c b = some i)
    (hw : i.wellFormed = true) : decodeWord (fullWord c a f d op b) = some i := by
  simp only [decodeWord, fullWord_op, fullWord_f, fullWord_d, fullWord_a, fullWord_c, fullWord_b, h, hw, if_true]

@[simp] theorem VReg.ofCode_code (r : VReg) : VReg.ofCode r.code = r := by
  cases r with
  | v n =>
    have h := n.isLt
    have e : (BitVec.ofNat 7 n.val).toNat = n.val := by simp; omega
    simp [VReg.ofCode, VReg.code, e]
  | z => rfl
  | ix k => revert k; decide

@[simp] theorem below_fld7 {n : Nat} (x : Fin n) (h : n ≤ 128) : below n (fld7 x) = some x := by
  have := x.isLt
  have e : (fld7 x).toNat = x.val := by simp [fld7]; omega
  simp [below, e]

@[simp] theorem pregOf_fld7 (x : PReg) : pregOf (fld7 x) = some x := below_fld7 x (by decide)

@[simp] theorem sregOf_fld7 (x : SReg) : sregOf (fld7 x) = some x := below_fld7 x (by decide)

@[simp] theorem xregOf_fld7 (x : XReg) : xregOf (fld7 x) = some x := below_fld7 x (by decide)

@[simp] theorem tagOf_fld7 (x : Tag) : tagOf (fld7 x) = some x := below_fld7 x (by decide)

@[simp] theorem resv_zero (i : Option Instr) : resv (0#7) i = i := rfl

@[simp] theorem low5_setWidth (n : BitVec 5) : low5 (n.setWidth 7) = some n := by
  have h := n.isLt
  have e : (n.setWidth 7).toNat = n.toNat := by simp; omega
  simp only [low5, e, h, if_true, Option.some.injEq]
  exact BitVec.eq_of_toNat_eq (by simp)

@[simp] theorem low3_setWidth (n : BitVec 3) : low3 (n.setWidth 7) = some n := by
  have h := n.isLt
  have e : (n.setWidth 7).toNat = n.toNat := by simp; omega
  simp only [low3, e, h, if_true, Option.some.injEq]
  exact BitVec.eq_of_toNat_eq (by simp)

@[simp] theorem low1_bit (x : Bool) : low1 (bif x then 1 else 0) = some x := by cases x <;> rfl

@[simp] theorem Rnd.ofCode_code (r : Rnd) : Rnd.ofCode r.code = some r := by cases r <;> rfl

@[simp] theorem rndOf7_code (r : Rnd) : rndOf7 (r.code.setWidth 7) = some r := by
  rw [rndOf7, low3_setWidth]; exact Rnd.ofCode_code r

@[simp] theorem SpReg.ofCode_code (r : SpReg) : SpReg.ofCode r.code = some r := by cases r <;> rfl

@[simp] theorem imm10_fields (x : BitVec 10) : x.extractLsb' 3 7 ++ x.extractLsb' 0 3 = x := by
  ext i h
  simp only [BitVec.getElem_append, BitVec.getElem_extractLsb']
  split
  · simp [BitVec.getLsbD, BitVec.getElem_eq_testBit_toNat]
  · rw [show 3 + (i - 3) = i by omega]; simp [BitVec.getLsbD, BitVec.getElem_eq_testBit_toNat]

@[simp] theorem imm17_fields (x : BitVec 17) : x.extractLsb' 10 7 ++ x.extractLsb' 3 7 ++ x.extractLsb' 0 3 = x := by
  ext i h
  simp only [BitVec.getElem_append, BitVec.getElem_extractLsb']
  split
  · simp [BitVec.getLsbD, BitVec.getElem_eq_testBit_toNat]
  · split
    · rw [show 3 + (i - 3) = i by omega]; simp [BitVec.getLsbD, BitVec.getElem_eq_testBit_toNat]
    · rw [show 10 + (i - 3 - 7) = i by omega]; simp [BitVec.getLsbD, BitVec.getElem_eq_testBit_toNat]

@[simp] theorem preg3 (p : PReg) : (BitVec.ofNat 3 p.val).toFin = p := by revert p; decide

@[simp] theorem reg5 (r : Fin 32) : (BitVec.ofNat 5 r.val).toFin = r := by revert r; decide

/-- The fields of a B-format word (R59, R82). -/
theorem branchWord_full (op : BitVec 6) (off : BitVec 16) (pn : Bool) (pg : PReg) (pr : BitVec 3) (u b : Bool) :
    branchWord op off pn pg pr u b = fullWord (off.extractLsb' 9 7) (off.extractLsb' 2 7)
      (off.extractLsb' 0 2 ++ BitVec.ofBool pn) (BitVec.ofNat 3 pg.val ++ pr ++ BitVec.ofBool u) op b := by
  apply BitVec.eq_of_getLsbD_eq
  intro i h
  simp only [branchWord, fullWord, BitVec.getLsbD_append]
  interval_cases i <;> simp

theorem decodeHalfWord_half (op4 : BitVec 4) (d c : BitVec 5) (b : Bool) :
    decodeHalfWord (halfWord op4 d c b) = decodeHalf op4 d c b := by
  have h1 : (halfWord op4 d c b).extractLsb' 2 4 = op4 := by
    ext i h
    simp only [halfWord, BitVec.getElem_extractLsb', BitVec.getLsbD_append]
    interval_cases i <;> simp
  have h2 : (halfWord op4 d c b).extractLsb' 6 5 = d := by
    ext i h
    simp only [halfWord, BitVec.getElem_extractLsb', BitVec.getLsbD_append]
    interval_cases i <;> simp
  have h3 : (halfWord op4 d c b).extractLsb' 11 5 = c := by
    ext i h
    simp only [halfWord, BitVec.getElem_extractLsb', BitVec.getLsbD_append]
    interval_cases i <;> simp
  have h4 : (halfWord op4 d c b).getLsbD 1 = b := by
    simp only [halfWord, BitVec.getLsbD_append]; simp
  rw [decodeHalfWord, h1, h2, h3, h4]

end Sys2Proof
end

