-- ==== Sys2Proof/Laws/State.lean ====
section
/-! SUPPORT. What each named update of the state does to each field of it. -/
namespace Sys2Proof.Machine

open Sys2Proof

/-! ## `modCore` -/

@[simp] theorem State.modCore_sku (s : State) (d k : Nat) (f : Core → Core) : (s.modCore d k f).sku = s.sku := rfl
@[simp] theorem State.modCore_ddr (s : State) (d k : Nat) (f : Core → Core) : (s.modCore d k f).ddr = s.ddr := rfl
@[simp] theorem State.modCore_ticks (s : State) (d k : Nat) (f : Core → Core) : (s.modCore d k f).ticks = s.ticks := rfl
@[simp] theorem State.modCore_mem (s : State) (d k : Nat) (f : Core → Core) : (s.modCore d k f).mem = s.mem := rfl
@[simp] theorem State.modCore_poison (s : State) (d k : Nat) (f : Core → Core) : (s.modCore d k f).poison = s.poison := rfl
@[simp] theorem State.modCore_cur (s : State) (d k : Nat) (f : Core → Core) : (s.modCore d k f).cur = s.cur := rfl
@[simp] theorem State.modCore_warps (s : State) (d k : Nat) (f : Core → Core) : (s.modCore d k f).warps = s.warps := rfl
@[simp] theorem State.modCore_cores (s : State) (d k : Nat) (f : Core → Core) : (s.modCore d k f).cores = s.cores.modify (96 * d + k) f := rfl
@[simp] theorem State.modCore_dies (s : State) (d k : Nat) (f : Core → Core) : (s.modCore d k f).dies = s.dies := rfl
@[simp] theorem State.modCore_lines (s : State) (d k : Nat) (f : Core → Core) : (s.modCore d k f).lines = s.lines := rfl
@[simp] theorem State.modCore_posted (s : State) (d k : Nat) (f : Core → Core) : (s.modCore d k f).posted = s.posted := rfl
@[simp] theorem State.modCore_lu (s : State) (d k : Nat) (f : Core → Core) : (s.modCore d k f).lu = s.lu := rfl
@[simp] theorem State.modCore_grids (s : State) (d k : Nat) (f : Core → Core) : (s.modCore d k f).grids = s.grids := rfl
@[simp] theorem State.modCore_teams (s : State) (d k : Nat) (f : Core → Core) : (s.modCore d k f).teams = s.teams := rfl
@[simp] theorem State.modCore_mmu (s : State) (d k : Nat) (f : Core → Core) : (s.modCore d k f).mmu = s.mmu := rfl
@[simp] theorem State.modCore_err (s : State) (d k : Nat) (f : Core → Core) : (s.modCore d k f).err = s.err := rfl
@[simp] theorem State.modCore_pwr (s : State) (d k : Nat) (f : Core → Core) : (s.modCore d k f).pwr = s.pwr := rfl
@[simp] theorem State.modCore_mgmt (s : State) (d k : Nat) (f : Core → Core) : (s.modCore d k f).mgmt = s.mgmt := rfl
@[simp] theorem State.modCore_net (s : State) (d k : Nat) (f : Core → Core) : (s.modCore d k f).net = s.net := rfl
@[simp] theorem State.modCore_uses (s : State) (d k : Nat) (f : Core → Core) : (s.modCore d k f).uses = s.uses := rfl
@[simp] theorem State.modCore_links (s : State) (d k : Nat) (f : Core → Core) : (s.modCore d k f).links = s.links := rfl
@[simp] theorem State.modCore_machineCheck (s : State) (d k : Nat) (f : Core → Core) : (s.modCore d k f).machineCheck = s.machineCheck := rfl
@[simp] theorem State.modCore_agenda (s : State) (d k : Nat) (f : Core → Core) : (s.modCore d k f).agenda = s.agenda := rfl
@[simp] theorem State.modCore_stall (s : State) (d k : Nat) (f : Core → Core) : (s.modCore d k f).stall = s.stall := rfl
@[simp] theorem State.modCore_snooped (s : State) (d k : Nat) (f : Core → Core) : (s.modCore d k f).snooped = s.snooped := rfl
@[simp] theorem State.modCore_defer (s : State) (d k : Nat) (f : Core → Core) : (s.modCore d k f).defer = s.defer := rfl
@[simp] theorem State.modCore_free (s : State) (d k : Nat) (f : Core → Core) : (s.modCore d k f).free = s.free := rfl
@[simp] theorem State.modCore_nextUid (s : State) (d k : Nat) (f : Core → Core) : (s.modCore d k f).nextUid = s.nextUid := rfl
@[simp] theorem State.modCore_insn (s : State) (d k : Nat) (f : Core → Core) : (s.modCore d k f).insn = s.insn := rfl

/-! ## `modDie` -/

@[simp] theorem State.modDie_sku (s : State) (d : Nat) (f : Die → Die) : (s.modDie d f).sku = s.sku := rfl
@[simp] theorem State.modDie_ddr (s : State) (d : Nat) (f : Die → Die) : (s.modDie d f).ddr = s.ddr := rfl
@[simp] theorem State.modDie_ticks (s : State) (d : Nat) (f : Die → Die) : (s.modDie d f).ticks = s.ticks := rfl
@[simp] theorem State.modDie_mem (s : State) (d : Nat) (f : Die → Die) : (s.modDie d f).mem = s.mem := rfl
@[simp] theorem State.modDie_poison (s : State) (d : Nat) (f : Die → Die) : (s.modDie d f).poison = s.poison := rfl
@[simp] theorem State.modDie_cur (s : State) (d : Nat) (f : Die → Die) : (s.modDie d f).cur = s.cur := rfl
@[simp] theorem State.modDie_warps (s : State) (d : Nat) (f : Die → Die) : (s.modDie d f).warps = s.warps := rfl
@[simp] theorem State.modDie_cores (s : State) (d : Nat) (f : Die → Die) : (s.modDie d f).cores = s.cores := rfl
@[simp] theorem State.modDie_dies (s : State) (d : Nat) (f : Die → Die) : (s.modDie d f).dies = s.dies.modify d f := rfl
@[simp] theorem State.modDie_lines (s : State) (d : Nat) (f : Die → Die) : (s.modDie d f).lines = s.lines := rfl
@[simp] theorem State.modDie_posted (s : State) (d : Nat) (f : Die → Die) : (s.modDie d f).posted = s.posted := rfl
@[simp] theorem State.modDie_lu (s : State) (d : Nat) (f : Die → Die) : (s.modDie d f).lu = s.lu := rfl
@[simp] theorem State.modDie_grids (s : State) (d : Nat) (f : Die → Die) : (s.modDie d f).grids = s.grids := rfl
@[simp] theorem State.modDie_teams (s : State) (d : Nat) (f : Die → Die) : (s.modDie d f).teams = s.teams := rfl
@[simp] theorem State.modDie_mmu (s : State) (d : Nat) (f : Die → Die) : (s.modDie d f).mmu = s.mmu := rfl
@[simp] theorem State.modDie_err (s : State) (d : Nat) (f : Die → Die) : (s.modDie d f).err = s.err := rfl
@[simp] theorem State.modDie_pwr (s : State) (d : Nat) (f : Die → Die) : (s.modDie d f).pwr = s.pwr := rfl
@[simp] theorem State.modDie_mgmt (s : State) (d : Nat) (f : Die → Die) : (s.modDie d f).mgmt = s.mgmt := rfl
@[simp] theorem State.modDie_net (s : State) (d : Nat) (f : Die → Die) : (s.modDie d f).net = s.net := rfl
@[simp] theorem State.modDie_uses (s : State) (d : Nat) (f : Die → Die) : (s.modDie d f).uses = s.uses := rfl
@[simp] theorem State.modDie_links (s : State) (d : Nat) (f : Die → Die) : (s.modDie d f).links = s.links := rfl
@[simp] theorem State.modDie_machineCheck (s : State) (d : Nat) (f : Die → Die) : (s.modDie d f).machineCheck = s.machineCheck := rfl
@[simp] theorem State.modDie_agenda (s : State) (d : Nat) (f : Die → Die) : (s.modDie d f).agenda = s.agenda := rfl
@[simp] theorem State.modDie_stall (s : State) (d : Nat) (f : Die → Die) : (s.modDie d f).stall = s.stall := rfl
@[simp] theorem State.modDie_snooped (s : State) (d : Nat) (f : Die → Die) : (s.modDie d f).snooped = s.snooped := rfl
@[simp] theorem State.modDie_defer (s : State) (d : Nat) (f : Die → Die) : (s.modDie d f).defer = s.defer := rfl
@[simp] theorem State.modDie_free (s : State) (d : Nat) (f : Die → Die) : (s.modDie d f).free = s.free := rfl
@[simp] theorem State.modDie_nextUid (s : State) (d : Nat) (f : Die → Die) : (s.modDie d f).nextUid = s.nextUid := rfl
@[simp] theorem State.modDie_insn (s : State) (d : Nat) (f : Die → Die) : (s.modDie d f).insn = s.insn := rfl

/-! ## `modWarp` -/

@[simp] theorem State.modWarp_sku (s : State) (u : Nat) (f : Warp → Warp) : (s.modWarp u f).sku = s.sku := rfl
@[simp] theorem State.modWarp_ddr (s : State) (u : Nat) (f : Warp → Warp) : (s.modWarp u f).ddr = s.ddr := rfl
@[simp] theorem State.modWarp_ticks (s : State) (u : Nat) (f : Warp → Warp) : (s.modWarp u f).ticks = s.ticks := rfl
@[simp] theorem State.modWarp_mem (s : State) (u : Nat) (f : Warp → Warp) : (s.modWarp u f).mem = s.mem := rfl
@[simp] theorem State.modWarp_poison (s : State) (u : Nat) (f : Warp → Warp) : (s.modWarp u f).poison = s.poison := rfl
@[simp] theorem State.modWarp_cur (s : State) (u : Nat) (f : Warp → Warp) : (s.modWarp u f).cur = s.cur.map (fun w => if w.uid = u then f w else w) := rfl
@[simp] theorem State.modWarp_warps (s : State) (u : Nat) (f : Warp → Warp) : (s.modWarp u f).warps = s.warps.map (fun w => if w.uid = u then f w else w) := rfl
@[simp] theorem State.modWarp_cores (s : State) (u : Nat) (f : Warp → Warp) : (s.modWarp u f).cores = s.cores := rfl
@[simp] theorem State.modWarp_dies (s : State) (u : Nat) (f : Warp → Warp) : (s.modWarp u f).dies = s.dies := rfl
@[simp] theorem State.modWarp_lines (s : State) (u : Nat) (f : Warp → Warp) : (s.modWarp u f).lines = s.lines := rfl
@[simp] theorem State.modWarp_posted (s : State) (u : Nat) (f : Warp → Warp) : (s.modWarp u f).posted = s.posted := rfl
@[simp] theorem State.modWarp_lu (s : State) (u : Nat) (f : Warp → Warp) : (s.modWarp u f).lu = s.lu := rfl
@[simp] theorem State.modWarp_grids (s : State) (u : Nat) (f : Warp → Warp) : (s.modWarp u f).grids = s.grids := rfl
@[simp] theorem State.modWarp_teams (s : State) (u : Nat) (f : Warp → Warp) : (s.modWarp u f).teams = s.teams := rfl
@[simp] theorem State.modWarp_mmu (s : State) (u : Nat) (f : Warp → Warp) : (s.modWarp u f).mmu = s.mmu := rfl
@[simp] theorem State.modWarp_err (s : State) (u : Nat) (f : Warp → Warp) : (s.modWarp u f).err = s.err := rfl
@[simp] theorem State.modWarp_pwr (s : State) (u : Nat) (f : Warp → Warp) : (s.modWarp u f).pwr = s.pwr := rfl
@[simp] theorem State.modWarp_mgmt (s : State) (u : Nat) (f : Warp → Warp) : (s.modWarp u f).mgmt = s.mgmt := rfl
@[simp] theorem State.modWarp_net (s : State) (u : Nat) (f : Warp → Warp) : (s.modWarp u f).net = s.net := rfl
@[simp] theorem State.modWarp_uses (s : State) (u : Nat) (f : Warp → Warp) : (s.modWarp u f).uses = s.uses := rfl
@[simp] theorem State.modWarp_links (s : State) (u : Nat) (f : Warp → Warp) : (s.modWarp u f).links = s.links := rfl
@[simp] theorem State.modWarp_machineCheck (s : State) (u : Nat) (f : Warp → Warp) : (s.modWarp u f).machineCheck = s.machineCheck := rfl
@[simp] theorem State.modWarp_agenda (s : State) (u : Nat) (f : Warp → Warp) : (s.modWarp u f).agenda = s.agenda := rfl
@[simp] theorem State.modWarp_stall (s : State) (u : Nat) (f : Warp → Warp) : (s.modWarp u f).stall = s.stall := rfl
@[simp] theorem State.modWarp_snooped (s : State) (u : Nat) (f : Warp → Warp) : (s.modWarp u f).snooped = s.snooped := rfl
@[simp] theorem State.modWarp_defer (s : State) (u : Nat) (f : Warp → Warp) : (s.modWarp u f).defer = s.defer := rfl
@[simp] theorem State.modWarp_free (s : State) (u : Nat) (f : Warp → Warp) : (s.modWarp u f).free = s.free := rfl
@[simp] theorem State.modWarp_nextUid (s : State) (u : Nat) (f : Warp → Warp) : (s.modWarp u f).nextUid = s.nextUid := rfl
@[simp] theorem State.modWarp_insn (s : State) (u : Nat) (f : Warp → Warp) : (s.modWarp u f).insn = s.insn := rfl

/-! ## `modGrid` -/

@[simp] theorem State.modGrid_sku (s : State) (k : Nat) (f : Grid → Grid) : (s.modGrid k f).sku = s.sku := rfl
@[simp] theorem State.modGrid_ddr (s : State) (k : Nat) (f : Grid → Grid) : (s.modGrid k f).ddr = s.ddr := rfl
@[simp] theorem State.modGrid_ticks (s : State) (k : Nat) (f : Grid → Grid) : (s.modGrid k f).ticks = s.ticks := rfl
@[simp] theorem State.modGrid_mem (s : State) (k : Nat) (f : Grid → Grid) : (s.modGrid k f).mem = s.mem := rfl
@[simp] theorem State.modGrid_poison (s : State) (k : Nat) (f : Grid → Grid) : (s.modGrid k f).poison = s.poison := rfl
@[simp] theorem State.modGrid_cur (s : State) (k : Nat) (f : Grid → Grid) : (s.modGrid k f).cur = s.cur := rfl
@[simp] theorem State.modGrid_warps (s : State) (k : Nat) (f : Grid → Grid) : (s.modGrid k f).warps = s.warps := rfl
@[simp] theorem State.modGrid_cores (s : State) (k : Nat) (f : Grid → Grid) : (s.modGrid k f).cores = s.cores := rfl
@[simp] theorem State.modGrid_dies (s : State) (k : Nat) (f : Grid → Grid) : (s.modGrid k f).dies = s.dies := rfl
@[simp] theorem State.modGrid_lines (s : State) (k : Nat) (f : Grid → Grid) : (s.modGrid k f).lines = s.lines := rfl
@[simp] theorem State.modGrid_posted (s : State) (k : Nat) (f : Grid → Grid) : (s.modGrid k f).posted = s.posted := rfl
@[simp] theorem State.modGrid_lu (s : State) (k : Nat) (f : Grid → Grid) : (s.modGrid k f).lu = s.lu := rfl
@[simp] theorem State.modGrid_grids (s : State) (k : Nat) (f : Grid → Grid) : (s.modGrid k f).grids = s.grids.map (fun g => if g.key = k then f g else g) := rfl
@[simp] theorem State.modGrid_teams (s : State) (k : Nat) (f : Grid → Grid) : (s.modGrid k f).teams = s.teams := rfl
@[simp] theorem State.modGrid_mmu (s : State) (k : Nat) (f : Grid → Grid) : (s.modGrid k f).mmu = s.mmu := rfl
@[simp] theorem State.modGrid_err (s : State) (k : Nat) (f : Grid → Grid) : (s.modGrid k f).err = s.err := rfl
@[simp] theorem State.modGrid_pwr (s : State) (k : Nat) (f : Grid → Grid) : (s.modGrid k f).pwr = s.pwr := rfl
@[simp] theorem State.modGrid_mgmt (s : State) (k : Nat) (f : Grid → Grid) : (s.modGrid k f).mgmt = s.mgmt := rfl
@[simp] theorem State.modGrid_net (s : State) (k : Nat) (f : Grid → Grid) : (s.modGrid k f).net = s.net := rfl
@[simp] theorem State.modGrid_uses (s : State) (k : Nat) (f : Grid → Grid) : (s.modGrid k f).uses = s.uses := rfl
@[simp] theorem State.modGrid_links (s : State) (k : Nat) (f : Grid → Grid) : (s.modGrid k f).links = s.links := rfl
@[simp] theorem State.modGrid_machineCheck (s : State) (k : Nat) (f : Grid → Grid) : (s.modGrid k f).machineCheck = s.machineCheck := rfl
@[simp] theorem State.modGrid_agenda (s : State) (k : Nat) (f : Grid → Grid) : (s.modGrid k f).agenda = s.agenda := rfl
@[simp] theorem State.modGrid_stall (s : State) (k : Nat) (f : Grid → Grid) : (s.modGrid k f).stall = s.stall := rfl
@[simp] theorem State.modGrid_snooped (s : State) (k : Nat) (f : Grid → Grid) : (s.modGrid k f).snooped = s.snooped := rfl
@[simp] theorem State.modGrid_defer (s : State) (k : Nat) (f : Grid → Grid) : (s.modGrid k f).defer = s.defer := rfl
@[simp] theorem State.modGrid_free (s : State) (k : Nat) (f : Grid → Grid) : (s.modGrid k f).free = s.free := rfl
@[simp] theorem State.modGrid_nextUid (s : State) (k : Nat) (f : Grid → Grid) : (s.modGrid k f).nextUid = s.nextUid := rfl
@[simp] theorem State.modGrid_insn (s : State) (k : Nat) (f : Grid → Grid) : (s.modGrid k f).insn = s.insn := rfl

/-! ## `modTeam` -/

@[simp] theorem State.modTeam_sku (s : State) (g i : Nat) (f : Team → Team) : (s.modTeam g i f).sku = s.sku := rfl
@[simp] theorem State.modTeam_ddr (s : State) (g i : Nat) (f : Team → Team) : (s.modTeam g i f).ddr = s.ddr := rfl
@[simp] theorem State.modTeam_ticks (s : State) (g i : Nat) (f : Team → Team) : (s.modTeam g i f).ticks = s.ticks := rfl
@[simp] theorem State.modTeam_mem (s : State) (g i : Nat) (f : Team → Team) : (s.modTeam g i f).mem = s.mem := rfl
@[simp] theorem State.modTeam_poison (s : State) (g i : Nat) (f : Team → Team) : (s.modTeam g i f).poison = s.poison := rfl
@[simp] theorem State.modTeam_cur (s : State) (g i : Nat) (f : Team → Team) : (s.modTeam g i f).cur = s.cur := rfl
@[simp] theorem State.modTeam_warps (s : State) (g i : Nat) (f : Team → Team) : (s.modTeam g i f).warps = s.warps := rfl
@[simp] theorem State.modTeam_cores (s : State) (g i : Nat) (f : Team → Team) : (s.modTeam g i f).cores = s.cores := rfl
@[simp] theorem State.modTeam_dies (s : State) (g i : Nat) (f : Team → Team) : (s.modTeam g i f).dies = s.dies := rfl
@[simp] theorem State.modTeam_lines (s : State) (g i : Nat) (f : Team → Team) : (s.modTeam g i f).lines = s.lines := rfl
@[simp] theorem State.modTeam_posted (s : State) (g i : Nat) (f : Team → Team) : (s.modTeam g i f).posted = s.posted := rfl
@[simp] theorem State.modTeam_lu (s : State) (g i : Nat) (f : Team → Team) : (s.modTeam g i f).lu = s.lu := rfl
@[simp] theorem State.modTeam_grids (s : State) (g i : Nat) (f : Team → Team) : (s.modTeam g i f).grids = s.grids := rfl
@[simp] theorem State.modTeam_teams (s : State) (g i : Nat) (f : Team → Team) : (s.modTeam g i f).teams = s.teams.map (fun t => if t.gk = g ∧ t.idx = i then f t else t) := rfl
@[simp] theorem State.modTeam_mmu (s : State) (g i : Nat) (f : Team → Team) : (s.modTeam g i f).mmu = s.mmu := rfl
@[simp] theorem State.modTeam_err (s : State) (g i : Nat) (f : Team → Team) : (s.modTeam g i f).err = s.err := rfl
@[simp] theorem State.modTeam_pwr (s : State) (g i : Nat) (f : Team → Team) : (s.modTeam g i f).pwr = s.pwr := rfl
@[simp] theorem State.modTeam_mgmt (s : State) (g i : Nat) (f : Team → Team) : (s.modTeam g i f).mgmt = s.mgmt := rfl
@[simp] theorem State.modTeam_net (s : State) (g i : Nat) (f : Team → Team) : (s.modTeam g i f).net = s.net := rfl
@[simp] theorem State.modTeam_uses (s : State) (g i : Nat) (f : Team → Team) : (s.modTeam g i f).uses = s.uses := rfl
@[simp] theorem State.modTeam_links (s : State) (g i : Nat) (f : Team → Team) : (s.modTeam g i f).links = s.links := rfl
@[simp] theorem State.modTeam_machineCheck (s : State) (g i : Nat) (f : Team → Team) : (s.modTeam g i f).machineCheck = s.machineCheck := rfl
@[simp] theorem State.modTeam_agenda (s : State) (g i : Nat) (f : Team → Team) : (s.modTeam g i f).agenda = s.agenda := rfl
@[simp] theorem State.modTeam_stall (s : State) (g i : Nat) (f : Team → Team) : (s.modTeam g i f).stall = s.stall := rfl
@[simp] theorem State.modTeam_snooped (s : State) (g i : Nat) (f : Team → Team) : (s.modTeam g i f).snooped = s.snooped := rfl
@[simp] theorem State.modTeam_defer (s : State) (g i : Nat) (f : Team → Team) : (s.modTeam g i f).defer = s.defer := rfl
@[simp] theorem State.modTeam_free (s : State) (g i : Nat) (f : Team → Team) : (s.modTeam g i f).free = s.free := rfl
@[simp] theorem State.modTeam_nextUid (s : State) (g i : Nat) (f : Team → Team) : (s.modTeam g i f).nextUid = s.nextUid := rfl
@[simp] theorem State.modTeam_insn (s : State) (g i : Nat) (f : Team → Team) : (s.modTeam g i f).insn = s.insn := rfl

/-! ## `passTicks` -/

@[simp] theorem State.passTicks_sku (s : State) (n : Nat) : (s.passTicks n).sku = s.sku := rfl
@[simp] theorem State.passTicks_ddr (s : State) (n : Nat) : (s.passTicks n).ddr = s.ddr := rfl
@[simp] theorem State.passTicks_ticks (s : State) (n : Nat) : (s.passTicks n).ticks = s.ticks + n := rfl
@[simp] theorem State.passTicks_mem (s : State) (n : Nat) : (s.passTicks n).mem = s.mem := rfl
@[simp] theorem State.passTicks_poison (s : State) (n : Nat) : (s.passTicks n).poison = s.poison := rfl
@[simp] theorem State.passTicks_cur (s : State) (n : Nat) : (s.passTicks n).cur = s.cur := rfl
@[simp] theorem State.passTicks_warps (s : State) (n : Nat) : (s.passTicks n).warps = s.warps := rfl
@[simp] theorem State.passTicks_cores (s : State) (n : Nat) : (s.passTicks n).cores = s.cores := rfl
@[simp] theorem State.passTicks_dies (s : State) (n : Nat) : (s.passTicks n).dies = s.dies.map (Die.pass n) := rfl
@[simp] theorem State.passTicks_lines (s : State) (n : Nat) : (s.passTicks n).lines = s.lines := rfl
@[simp] theorem State.passTicks_posted (s : State) (n : Nat) : (s.passTicks n).posted = s.posted := rfl
@[simp] theorem State.passTicks_lu (s : State) (n : Nat) : (s.passTicks n).lu = s.lu := rfl
@[simp] theorem State.passTicks_grids (s : State) (n : Nat) : (s.passTicks n).grids = s.grids := rfl
@[simp] theorem State.passTicks_teams (s : State) (n : Nat) : (s.passTicks n).teams = s.teams := rfl
@[simp] theorem State.passTicks_mmu (s : State) (n : Nat) : (s.passTicks n).mmu = s.mmu := rfl
@[simp] theorem State.passTicks_err (s : State) (n : Nat) : (s.passTicks n).err = s.err := rfl
@[simp] theorem State.passTicks_pwr (s : State) (n : Nat) : (s.passTicks n).pwr = s.pwr := rfl
@[simp] theorem State.passTicks_mgmt (s : State) (n : Nat) : (s.passTicks n).mgmt = s.mgmt := rfl
@[simp] theorem State.passTicks_net (s : State) (n : Nat) : (s.passTicks n).net = s.net := rfl
@[simp] theorem State.passTicks_uses (s : State) (n : Nat) : (s.passTicks n).uses = s.uses := rfl
@[simp] theorem State.passTicks_links (s : State) (n : Nat) : (s.passTicks n).links = s.links := rfl
@[simp] theorem State.passTicks_machineCheck (s : State) (n : Nat) : (s.passTicks n).machineCheck = s.machineCheck := rfl
@[simp] theorem State.passTicks_agenda (s : State) (n : Nat) : (s.passTicks n).agenda = s.agenda := rfl
@[simp] theorem State.passTicks_stall (s : State) (n : Nat) : (s.passTicks n).stall = s.stall := rfl
@[simp] theorem State.passTicks_snooped (s : State) (n : Nat) : (s.passTicks n).snooped = s.snooped := rfl
@[simp] theorem State.passTicks_defer (s : State) (n : Nat) : (s.passTicks n).defer = s.defer := rfl
@[simp] theorem State.passTicks_free (s : State) (n : Nat) : (s.passTicks n).free = s.free := rfl
@[simp] theorem State.passTicks_nextUid (s : State) (n : Nat) : (s.passTicks n).nextUid = s.nextUid := rfl
@[simp] theorem State.passTicks_insn (s : State) (n : Nat) : (s.passTicks n).insn = s.insn := rfl

/-! ## `passCycles` -/

@[simp] theorem State.passCycles_sku (s : State) (d n : Nat) : (s.passCycles d n).sku = s.sku := rfl
@[simp] theorem State.passCycles_ddr (s : State) (d n : Nat) : (s.passCycles d n).ddr = s.ddr := rfl
@[simp] theorem State.passCycles_ticks (s : State) (d n : Nat) : (s.passCycles d n).ticks = s.ticks + n * ticksPerCycle (s.die d).pstate := rfl
@[simp] theorem State.passCycles_mem (s : State) (d n : Nat) : (s.passCycles d n).mem = s.mem := rfl
@[simp] theorem State.passCycles_poison (s : State) (d n : Nat) : (s.passCycles d n).poison = s.poison := rfl
@[simp] theorem State.passCycles_cur (s : State) (d n : Nat) : (s.passCycles d n).cur = s.cur := rfl
@[simp] theorem State.passCycles_warps (s : State) (d n : Nat) : (s.passCycles d n).warps = s.warps := rfl
@[simp] theorem State.passCycles_cores (s : State) (d n : Nat) : (s.passCycles d n).cores = s.cores := rfl
@[simp] theorem State.passCycles_dies (s : State) (d n : Nat) : (s.passCycles d n).dies = s.dies.map (Die.pass (n * ticksPerCycle (s.die d).pstate)) := rfl
@[simp] theorem State.passCycles_lines (s : State) (d n : Nat) : (s.passCycles d n).lines = s.lines := rfl
@[simp] theorem State.passCycles_posted (s : State) (d n : Nat) : (s.passCycles d n).posted = s.posted := rfl
@[simp] theorem State.passCycles_lu (s : State) (d n : Nat) : (s.passCycles d n).lu = s.lu := rfl
@[simp] theorem State.passCycles_grids (s : State) (d n : Nat) : (s.passCycles d n).grids = s.grids := rfl
@[simp] theorem State.passCycles_teams (s : State) (d n : Nat) : (s.passCycles d n).teams = s.teams := rfl
@[simp] theorem State.passCycles_mmu (s : State) (d n : Nat) : (s.passCycles d n).mmu = s.mmu := rfl
@[simp] theorem State.passCycles_err (s : State) (d n : Nat) : (s.passCycles d n).err = s.err := rfl
@[simp] theorem State.passCycles_pwr (s : State) (d n : Nat) : (s.passCycles d n).pwr = s.pwr := rfl
@[simp] theorem State.passCycles_mgmt (s : State) (d n : Nat) : (s.passCycles d n).mgmt = s.mgmt := rfl
@[simp] theorem State.passCycles_net (s : State) (d n : Nat) : (s.passCycles d n).net = s.net := rfl
@[simp] theorem State.passCycles_uses (s : State) (d n : Nat) : (s.passCycles d n).uses = s.uses := rfl
@[simp] theorem State.passCycles_links (s : State) (d n : Nat) : (s.passCycles d n).links = s.links := rfl
@[simp] theorem State.passCycles_machineCheck (s : State) (d n : Nat) : (s.passCycles d n).machineCheck = s.machineCheck := rfl
@[simp] theorem State.passCycles_agenda (s : State) (d n : Nat) : (s.passCycles d n).agenda = s.agenda := rfl
@[simp] theorem State.passCycles_stall (s : State) (d n : Nat) : (s.passCycles d n).stall = s.stall := rfl
@[simp] theorem State.passCycles_snooped (s : State) (d n : Nat) : (s.passCycles d n).snooped = s.snooped := rfl
@[simp] theorem State.passCycles_defer (s : State) (d n : Nat) : (s.passCycles d n).defer = s.defer := rfl
@[simp] theorem State.passCycles_free (s : State) (d n : Nat) : (s.passCycles d n).free = s.free := rfl
@[simp] theorem State.passCycles_nextUid (s : State) (d n : Nat) : (s.passCycles d n).nextUid = s.nextUid := rfl
@[simp] theorem State.passCycles_insn (s : State) (d n : Nat) : (s.passCycles d n).insn = s.insn := rfl

/-! ## `count` -/

@[simp] theorem State.count_sku (s : State) (d k i n : Nat) : (s.count d k i n).sku = s.sku := rfl
@[simp] theorem State.count_ddr (s : State) (d k i n : Nat) : (s.count d k i n).ddr = s.ddr := rfl
@[simp] theorem State.count_ticks (s : State) (d k i n : Nat) : (s.count d k i n).ticks = s.ticks := rfl
@[simp] theorem State.count_mem (s : State) (d k i n : Nat) : (s.count d k i n).mem = s.mem := rfl
@[simp] theorem State.count_poison (s : State) (d k i n : Nat) : (s.count d k i n).poison = s.poison := rfl
@[simp] theorem State.count_cur (s : State) (d k i n : Nat) : (s.count d k i n).cur = s.cur := rfl
@[simp] theorem State.count_warps (s : State) (d k i n : Nat) : (s.count d k i n).warps = s.warps := rfl
@[simp] theorem State.count_cores (s : State) (d k i n : Nat) : (s.count d k i n).cores = s.cores.modify (96 * d + k) (fun c => { c with perf := c.perf.modify i (· + BitVec.ofNat 64 n) }) := rfl
@[simp] theorem State.count_dies (s : State) (d k i n : Nat) : (s.count d k i n).dies = s.dies := rfl
@[simp] theorem State.count_lines (s : State) (d k i n : Nat) : (s.count d k i n).lines = s.lines := rfl
@[simp] theorem State.count_posted (s : State) (d k i n : Nat) : (s.count d k i n).posted = s.posted := rfl
@[simp] theorem State.count_lu (s : State) (d k i n : Nat) : (s.count d k i n).lu = s.lu := rfl
@[simp] theorem State.count_grids (s : State) (d k i n : Nat) : (s.count d k i n).grids = s.grids := rfl
@[simp] theorem State.count_teams (s : State) (d k i n : Nat) : (s.count d k i n).teams = s.teams := rfl
@[simp] theorem State.count_mmu (s : State) (d k i n : Nat) : (s.count d k i n).mmu = s.mmu := rfl
@[simp] theorem State.count_err (s : State) (d k i n : Nat) : (s.count d k i n).err = s.err := rfl
@[simp] theorem State.count_pwr (s : State) (d k i n : Nat) : (s.count d k i n).pwr = s.pwr := rfl
@[simp] theorem State.count_mgmt (s : State) (d k i n : Nat) : (s.count d k i n).mgmt = s.mgmt := rfl
@[simp] theorem State.count_net (s : State) (d k i n : Nat) : (s.count d k i n).net = s.net := rfl
@[simp] theorem State.count_uses (s : State) (d k i n : Nat) : (s.count d k i n).uses = s.uses := rfl
@[simp] theorem State.count_links (s : State) (d k i n : Nat) : (s.count d k i n).links = s.links := rfl
@[simp] theorem State.count_machineCheck (s : State) (d k i n : Nat) : (s.count d k i n).machineCheck = s.machineCheck := rfl
@[simp] theorem State.count_agenda (s : State) (d k i n : Nat) : (s.count d k i n).agenda = s.agenda := rfl
@[simp] theorem State.count_stall (s : State) (d k i n : Nat) : (s.count d k i n).stall = s.stall := rfl
@[simp] theorem State.count_snooped (s : State) (d k i n : Nat) : (s.count d k i n).snooped = s.snooped := rfl
@[simp] theorem State.count_defer (s : State) (d k i n : Nat) : (s.count d k i n).defer = s.defer := rfl
@[simp] theorem State.count_free (s : State) (d k i n : Nat) : (s.count d k i n).free = s.free := rfl
@[simp] theorem State.count_nextUid (s : State) (d k i n : Nat) : (s.count d k i n).nextUid = s.nextUid := rfl
@[simp] theorem State.count_insn (s : State) (d k i n : Nat) : (s.count d k i n).insn = s.insn := rfl

/-! ## `modLine` -/

@[simp] theorem State.modLine_sku (s : State) (l : Nat) (g : LineRec → LineRec) : (s.modLine l g).sku = s.sku := by
  unfold State.modLine; split <;> rfl
@[simp] theorem State.modLine_ddr (s : State) (l : Nat) (g : LineRec → LineRec) : (s.modLine l g).ddr = s.ddr := by
  unfold State.modLine; split <;> rfl
@[simp] theorem State.modLine_ticks (s : State) (l : Nat) (g : LineRec → LineRec) : (s.modLine l g).ticks = s.ticks := by
  unfold State.modLine; split <;> rfl
@[simp] theorem State.modLine_mem (s : State) (l : Nat) (g : LineRec → LineRec) : (s.modLine l g).mem = s.mem := by
  unfold State.modLine; split <;> rfl
@[simp] theorem State.modLine_poison (s : State) (l : Nat) (g : LineRec → LineRec) : (s.modLine l g).poison = s.poison := by
  unfold State.modLine; split <;> rfl
@[simp] theorem State.modLine_cur (s : State) (l : Nat) (g : LineRec → LineRec) : (s.modLine l g).cur = s.cur := by
  unfold State.modLine; split <;> rfl
@[simp] theorem State.modLine_warps (s : State) (l : Nat) (g : LineRec → LineRec) : (s.modLine l g).warps = s.warps := by
  unfold State.modLine; split <;> rfl
@[simp] theorem State.modLine_cores (s : State) (l : Nat) (g : LineRec → LineRec) : (s.modLine l g).cores = s.cores := by
  unfold State.modLine; split <;> rfl
@[simp] theorem State.modLine_dies (s : State) (l : Nat) (g : LineRec → LineRec) : (s.modLine l g).dies = s.dies := by
  unfold State.modLine; split <;> rfl
@[simp] theorem State.modLine_posted (s : State) (l : Nat) (g : LineRec → LineRec) : (s.modLine l g).posted = s.posted := by
  unfold State.modLine; split <;> rfl
@[simp] theorem State.modLine_lu (s : State) (l : Nat) (g : LineRec → LineRec) : (s.modLine l g).lu = s.lu := by
  unfold State.modLine; split <;> rfl
@[simp] theorem State.modLine_grids (s : State) (l : Nat) (g : LineRec → LineRec) : (s.modLine l g).grids = s.grids := by
  unfold State.modLine; split <;> rfl
@[simp] theorem State.modLine_teams (s : State) (l : Nat) (g : LineRec → LineRec) : (s.modLine l g).teams = s.teams := by
  unfold State.modLine; split <;> rfl
@[simp] theorem State.modLine_mmu (s : State) (l : Nat) (g : LineRec → LineRec) : (s.modLine l g).mmu = s.mmu := by
  unfold State.modLine; split <;> rfl
@[simp] theorem State.modLine_err (s : State) (l : Nat) (g : LineRec → LineRec) : (s.modLine l g).err = s.err := by
  unfold State.modLine; split <;> rfl
@[simp] theorem State.modLine_pwr (s : State) (l : Nat) (g : LineRec → LineRec) : (s.modLine l g).pwr = s.pwr := by
  unfold State.modLine; split <;> rfl
@[simp] theorem State.modLine_mgmt (s : State) (l : Nat) (g : LineRec → LineRec) : (s.modLine l g).mgmt = s.mgmt := by
  unfold State.modLine; split <;> rfl
@[simp] theorem State.modLine_net (s : State) (l : Nat) (g : LineRec → LineRec) : (s.modLine l g).net = s.net := by
  unfold State.modLine; split <;> rfl
@[simp] theorem State.modLine_uses (s : State) (l : Nat) (g : LineRec → LineRec) : (s.modLine l g).uses = s.uses := by
  unfold State.modLine; split <;> rfl
@[simp] theorem State.modLine_links (s : State) (l : Nat) (g : LineRec → LineRec) : (s.modLine l g).links = s.links := by
  unfold State.modLine; split <;> rfl
@[simp] theorem State.modLine_machineCheck (s : State) (l : Nat) (g : LineRec → LineRec) : (s.modLine l g).machineCheck = s.machineCheck := by
  unfold State.modLine; split <;> rfl
@[simp] theorem State.modLine_agenda (s : State) (l : Nat) (g : LineRec → LineRec) : (s.modLine l g).agenda = s.agenda := by
  unfold State.modLine; split <;> rfl
@[simp] theorem State.modLine_stall (s : State) (l : Nat) (g : LineRec → LineRec) : (s.modLine l g).stall = s.stall := by
  unfold State.modLine; split <;> rfl
@[simp] theorem State.modLine_snooped (s : State) (l : Nat) (g : LineRec → LineRec) : (s.modLine l g).snooped = s.snooped := by
  unfold State.modLine; split <;> rfl
@[simp] theorem State.modLine_defer (s : State) (l : Nat) (g : LineRec → LineRec) : (s.modLine l g).defer = s.defer := by
  unfold State.modLine; split <;> rfl
@[simp] theorem State.modLine_free (s : State) (l : Nat) (g : LineRec → LineRec) : (s.modLine l g).free = s.free := by
  unfold State.modLine; split <;> rfl
@[simp] theorem State.modLine_nextUid (s : State) (l : Nat) (g : LineRec → LineRec) : (s.modLine l g).nextUid = s.nextUid := by
  unfold State.modLine; split <;> rfl
@[simp] theorem State.modLine_insn (s : State) (l : Nat) (g : LineRec → LineRec) : (s.modLine l g).insn = s.insn := by
  unfold State.modLine; split <;> rfl

/-! ## `leaveSlot` -/

@[simp] theorem State.leaveSlot_sku (s : State) (w : Warp) : (s.leaveSlot w).sku = s.sku := rfl
@[simp] theorem State.leaveSlot_ddr (s : State) (w : Warp) : (s.leaveSlot w).ddr = s.ddr := rfl
@[simp] theorem State.leaveSlot_ticks (s : State) (w : Warp) : (s.leaveSlot w).ticks = s.ticks := rfl
@[simp] theorem State.leaveSlot_mem (s : State) (w : Warp) : (s.leaveSlot w).mem = s.mem := rfl
@[simp] theorem State.leaveSlot_poison (s : State) (w : Warp) : (s.leaveSlot w).poison = s.poison := rfl
@[simp] theorem State.leaveSlot_cur (s : State) (w : Warp) : (s.leaveSlot w).cur = none := rfl
@[simp] theorem State.leaveSlot_warps (s : State) (w : Warp) : (s.leaveSlot w).warps = s.warps ++ [w.offSlot] := rfl
@[simp] theorem State.leaveSlot_cores (s : State) (w : Warp) : (s.leaveSlot w).cores = (s.modCore w.die w.core (fun c => { c with slots := c.slots.map (fun x => if x = some w.uid then none else x) })).cores := rfl
@[simp] theorem State.leaveSlot_dies (s : State) (w : Warp) : (s.leaveSlot w).dies = s.dies := rfl
@[simp] theorem State.leaveSlot_lines (s : State) (w : Warp) : (s.leaveSlot w).lines = s.lines := rfl
@[simp] theorem State.leaveSlot_posted (s : State) (w : Warp) : (s.leaveSlot w).posted = s.posted := rfl
@[simp] theorem State.leaveSlot_lu (s : State) (w : Warp) : (s.leaveSlot w).lu = s.lu := rfl
@[simp] theorem State.leaveSlot_grids (s : State) (w : Warp) : (s.leaveSlot w).grids = s.grids := rfl
@[simp] theorem State.leaveSlot_teams (s : State) (w : Warp) : (s.leaveSlot w).teams = s.teams := rfl
@[simp] theorem State.leaveSlot_mmu (s : State) (w : Warp) : (s.leaveSlot w).mmu = s.mmu := rfl
@[simp] theorem State.leaveSlot_err (s : State) (w : Warp) : (s.leaveSlot w).err = s.err := rfl
@[simp] theorem State.leaveSlot_pwr (s : State) (w : Warp) : (s.leaveSlot w).pwr = s.pwr := rfl
@[simp] theorem State.leaveSlot_mgmt (s : State) (w : Warp) : (s.leaveSlot w).mgmt = s.mgmt := rfl
@[simp] theorem State.leaveSlot_net (s : State) (w : Warp) : (s.leaveSlot w).net = s.net := rfl
@[simp] theorem State.leaveSlot_uses (s : State) (w : Warp) : (s.leaveSlot w).uses = s.uses := rfl
@[simp] theorem State.leaveSlot_links (s : State) (w : Warp) : (s.leaveSlot w).links = s.links := rfl
@[simp] theorem State.leaveSlot_machineCheck (s : State) (w : Warp) : (s.leaveSlot w).machineCheck = s.machineCheck := rfl
@[simp] theorem State.leaveSlot_agenda (s : State) (w : Warp) : (s.leaveSlot w).agenda = s.agenda := rfl
@[simp] theorem State.leaveSlot_stall (s : State) (w : Warp) : (s.leaveSlot w).stall = s.stall := rfl
@[simp] theorem State.leaveSlot_snooped (s : State) (w : Warp) : (s.leaveSlot w).snooped = s.snooped := rfl
@[simp] theorem State.leaveSlot_defer (s : State) (w : Warp) : (s.leaveSlot w).defer = s.defer := rfl
@[simp] theorem State.leaveSlot_free (s : State) (w : Warp) : (s.leaveSlot w).free = s.free := rfl
@[simp] theorem State.leaveSlot_nextUid (s : State) (w : Warp) : (s.leaveSlot w).nextUid = s.nextUid := rfl
@[simp] theorem State.leaveSlot_insn (s : State) (w : Warp) : (s.leaveSlot w).insn = s.insn := rfl

/-! ## `offSlot` -/

@[simp] theorem Warp.offSlot_uid (w : Warp) : w.offSlot.uid = w.uid := rfl
@[simp] theorem Warp.offSlot_die (w : Warp) : w.offSlot.die = w.die := rfl
@[simp] theorem Warp.offSlot_core (w : Warp) : w.offSlot.core = w.core := rfl
@[simp] theorem Warp.offSlot_ctx (w : Warp) : w.offSlot.ctx = w.ctx := rfl
@[simp] theorem Warp.offSlot_gk (w : Warp) : w.offSlot.gk = w.gk := rfl
@[simp] theorem Warp.offSlot_gathered (w : Warp) : w.offSlot.gathered = w.gathered := rfl
@[simp] theorem Warp.offSlot_index (w : Warp) : w.offSlot.index = w.index := rfl
@[simp] theorem Warp.offSlot_width (w : Warp) : w.offSlot.width = w.width := rfl
@[simp] theorem Warp.offSlot_alloc (w : Warp) : w.offSlot.alloc = w.alloc := rfl
@[simp] theorem Warp.offSlot_lanes (w : Warp) : w.offSlot.lanes = w.lanes := rfl
@[simp] theorem Warp.offSlot_sregs (w : Warp) : w.offSlot.sregs = w.sregs := rfl
@[simp] theorem Warp.offSlot_wmode (w : Warp) : w.offSlot.wmode = w.wmode := rfl
@[simp] theorem Warp.offSlot_tcause (w : Warp) : w.offSlot.tcause = w.tcause := rfl
@[simp] theorem Warp.offSlot_tepc (w : Warp) : w.offSlot.tepc = w.tepc := rfl
@[simp] theorem Warp.offSlot_tmask (w : Warp) : w.offSlot.tmask = w.tmask := rfl
@[simp] theorem Warp.offSlot_trec (w : Warp) : w.offSlot.trec = w.trec := rfl
@[simp] theorem Warp.offSlot_tscratch (w : Warp) : w.offSlot.tscratch = w.tscratch := rfl
@[simp] theorem Warp.offSlot_tags (w : Warp) : w.offSlot.tags = w.tags := rfl
@[simp] theorem Warp.offSlot_front (w : Warp) : w.offSlot.front = w.front := rfl
@[simp] theorem Warp.offSlot_handler (w : Warp) : w.offSlot.handler = w.handler := rfl
@[simp] theorem Warp.offSlot_held (w : Warp) : w.offSlot.held = w.held := rfl
@[simp] theorem Warp.offSlot_heldTraps (w : Warp) : w.offSlot.heldTraps = w.heldTraps := rfl
@[simp] theorem Warp.offSlot_inRun (w : Warp) : w.offSlot.inRun = false := rfl
@[simp] theorem Warp.offSlot_count (w : Warp) : w.offSlot.count = 0 := rfl
@[simp] theorem Warp.offSlot_pend (w : Warp) : w.offSlot.pend = w.pend := rfl
@[simp] theorem Warp.offSlot_wait (w : Warp) : w.offSlot.wait = w.wait := rfl
@[simp] theorem Warp.offSlot_barm (w : Warp) : w.offSlot.barm = w.barm := rfl
@[simp] theorem Warp.offSlot_window (w : Warp) : w.offSlot.window = w.window := rfl
@[simp] theorem Warp.offSlot_sent (w : Warp) : w.offSlot.sent = w.sent := rfl
@[simp] theorem Warp.offSlot_cmpWait (w : Warp) : w.offSlot.cmpWait = w.cmpWait := rfl
@[simp] theorem Warp.offSlot_loads (w : Warp) : w.offSlot.loads = w.loads := rfl
@[simp] theorem Warp.offSlot_lateFlags (w : Warp) : w.offSlot.lateFlags = w.lateFlags := rfl
@[simp] theorem Warp.offSlot_waitsOn (w : Warp) : w.offSlot.waitsOn = w.waitsOn := rfl
@[simp] theorem Warp.offSlot_atTxe (w : Warp) : w.offSlot.atTxe = w.atTxe := rfl
@[simp] theorem Warp.offSlot_rbAddr (w : Warp) : w.offSlot.rbAddr = w.rbAddr := rfl
@[simp] theorem Warp.offSlot_rbCount (w : Warp) : w.offSlot.rbCount = w.rbCount := rfl
@[simp] theorem Warp.offSlot_cautious (w : Warp) : w.offSlot.cautious = w.cautious := rfl
@[simp] theorem Warp.offSlot_txLog (w : Warp) : w.offSlot.txLog = w.txLog := rfl
@[simp] theorem Warp.offSlot_txBuf (w : Warp) : w.offSlot.txBuf = w.txBuf := rfl
@[simp] theorem Warp.offSlot_lastIssue (w : Warp) : w.offSlot.lastIssue = w.lastIssue := rfl
@[simp] theorem Warp.offSlot_bankBase (w : Warp) : w.offSlot.bankBase = w.bankBase := rfl
@[simp] theorem Warp.offSlot_bankWord (w : Warp) : w.offSlot.bankWord = w.bankWord := rfl
@[simp] theorem Warp.offSlot_yielded (w : Warp) : w.offSlot.yielded = w.yielded := rfl
@[simp] theorem Warp.offSlot_slotSeed (w : Warp) : w.offSlot.slotSeed = w.slotSeed := rfl
@[simp] theorem Warp.offSlot_noYield (w : Warp) : w.offSlot.noYield = w.noYield := rfl
@[simp] theorem Warp.offSlot_kill (w : Warp) : w.offSlot.kill = w.kill := rfl
@[simp] theorem Warp.offSlot_failing (w : Warp) : w.offSlot.failing = w.failing := rfl
@[simp] theorem Warp.offSlot_stopped (w : Warp) : w.offSlot.stopped = w.stopped := rfl
@[simp] theorem Warp.offSlot_yielding (w : Warp) : w.offSlot.yielding = w.yielding := rfl

/-! ## `setFront`, `listening`, `awake` -/

@[simp] theorem Warp.setFront_uid (w : Warp) (fr : List FEntry) : (w.setFront fr).uid = w.uid := rfl
@[simp] theorem Warp.setFront_die (w : Warp) (fr : List FEntry) : (w.setFront fr).die = w.die := rfl
@[simp] theorem Warp.setFront_core (w : Warp) (fr : List FEntry) : (w.setFront fr).core = w.core := rfl
@[simp] theorem Warp.setFront_ctx (w : Warp) (fr : List FEntry) : (w.setFront fr).ctx = w.ctx := rfl
@[simp] theorem Warp.setFront_gk (w : Warp) (fr : List FEntry) : (w.setFront fr).gk = w.gk := rfl
@[simp] theorem Warp.setFront_gathered (w : Warp) (fr : List FEntry) : (w.setFront fr).gathered = w.gathered := rfl
@[simp] theorem Warp.setFront_index (w : Warp) (fr : List FEntry) : (w.setFront fr).index = w.index := rfl
@[simp] theorem Warp.setFront_width (w : Warp) (fr : List FEntry) : (w.setFront fr).width = w.width := rfl
@[simp] theorem Warp.setFront_alloc (w : Warp) (fr : List FEntry) : (w.setFront fr).alloc = w.alloc := rfl
@[simp] theorem Warp.setFront_lanes (w : Warp) (fr : List FEntry) : (w.setFront fr).lanes = w.lanes := rfl
@[simp] theorem Warp.setFront_sregs (w : Warp) (fr : List FEntry) : (w.setFront fr).sregs = w.sregs := rfl
@[simp] theorem Warp.setFront_wmode (w : Warp) (fr : List FEntry) : (w.setFront fr).wmode = w.wmode := rfl
@[simp] theorem Warp.setFront_tcause (w : Warp) (fr : List FEntry) : (w.setFront fr).tcause = w.tcause := rfl
@[simp] theorem Warp.setFront_tepc (w : Warp) (fr : List FEntry) : (w.setFront fr).tepc = w.tepc := rfl
@[simp] theorem Warp.setFront_tmask (w : Warp) (fr : List FEntry) : (w.setFront fr).tmask = w.tmask := rfl
@[simp] theorem Warp.setFront_trec (w : Warp) (fr : List FEntry) : (w.setFront fr).trec = w.trec := rfl
@[simp] theorem Warp.setFront_tscratch (w : Warp) (fr : List FEntry) : (w.setFront fr).tscratch = w.tscratch := rfl
@[simp] theorem Warp.setFront_tags (w : Warp) (fr : List FEntry) : (w.setFront fr).tags = w.tags := rfl
@[simp] theorem Warp.setFront_front (w : Warp) (fr : List FEntry) : (w.setFront fr).front = fr := rfl
@[simp] theorem Warp.setFront_handler (w : Warp) (fr : List FEntry) : (w.setFront fr).handler = w.handler := rfl
@[simp] theorem Warp.setFront_held (w : Warp) (fr : List FEntry) : (w.setFront fr).held = w.held := rfl
@[simp] theorem Warp.setFront_heldTraps (w : Warp) (fr : List FEntry) : (w.setFront fr).heldTraps = w.heldTraps := rfl
@[simp] theorem Warp.setFront_inRun (w : Warp) (fr : List FEntry) : (w.setFront fr).inRun = w.inRun := rfl
@[simp] theorem Warp.setFront_count (w : Warp) (fr : List FEntry) : (w.setFront fr).count = w.count := rfl
@[simp] theorem Warp.setFront_pend (w : Warp) (fr : List FEntry) : (w.setFront fr).pend = w.pend := rfl
@[simp] theorem Warp.setFront_wait (w : Warp) (fr : List FEntry) : (w.setFront fr).wait = w.wait := rfl
@[simp] theorem Warp.setFront_barm (w : Warp) (fr : List FEntry) : (w.setFront fr).barm = w.barm := rfl
@[simp] theorem Warp.setFront_window (w : Warp) (fr : List FEntry) : (w.setFront fr).window = w.window := rfl
@[simp] theorem Warp.setFront_sent (w : Warp) (fr : List FEntry) : (w.setFront fr).sent = w.sent := rfl
@[simp] theorem Warp.setFront_cmpWait (w : Warp) (fr : List FEntry) : (w.setFront fr).cmpWait = w.cmpWait := rfl
@[simp] theorem Warp.setFront_loads (w : Warp) (fr : List FEntry) : (w.setFront fr).loads = w.loads := rfl
@[simp] theorem Warp.setFront_lateFlags (w : Warp) (fr : List FEntry) : (w.setFront fr).lateFlags = w.lateFlags := rfl
@[simp] theorem Warp.setFront_waitsOn (w : Warp) (fr : List FEntry) : (w.setFront fr).waitsOn = w.waitsOn := rfl
@[simp] theorem Warp.setFront_atTxe (w : Warp) (fr : List FEntry) : (w.setFront fr).atTxe = w.atTxe := rfl
@[simp] theorem Warp.setFront_rbAddr (w : Warp) (fr : List FEntry) : (w.setFront fr).rbAddr = w.rbAddr := rfl
@[simp] theorem Warp.setFront_rbCount (w : Warp) (fr : List FEntry) : (w.setFront fr).rbCount = w.rbCount := rfl
@[simp] theorem Warp.setFront_cautious (w : Warp) (fr : List FEntry) : (w.setFront fr).cautious = w.cautious := rfl
@[simp] theorem Warp.setFront_txLog (w : Warp) (fr : List FEntry) : (w.setFront fr).txLog = w.txLog := rfl
@[simp] theorem Warp.setFront_txBuf (w : Warp) (fr : List FEntry) : (w.setFront fr).txBuf = w.txBuf := rfl
@[simp] theorem Warp.setFront_lastIssue (w : Warp) (fr : List FEntry) : (w.setFront fr).lastIssue = w.lastIssue := rfl
@[simp] theorem Warp.setFront_bankBase (w : Warp) (fr : List FEntry) : (w.setFront fr).bankBase = w.bankBase := rfl
@[simp] theorem Warp.setFront_bankWord (w : Warp) (fr : List FEntry) : (w.setFront fr).bankWord = w.bankWord := rfl
@[simp] theorem Warp.setFront_yielded (w : Warp) (fr : List FEntry) : (w.setFront fr).yielded = w.yielded := rfl
@[simp] theorem Warp.setFront_slotSeed (w : Warp) (fr : List FEntry) : (w.setFront fr).slotSeed = w.slotSeed := rfl
@[simp] theorem Warp.setFront_noYield (w : Warp) (fr : List FEntry) : (w.setFront fr).noYield = w.noYield := rfl
@[simp] theorem Warp.setFront_kill (w : Warp) (fr : List FEntry) : (w.setFront fr).kill = w.kill := rfl
@[simp] theorem Warp.setFront_failing (w : Warp) (fr : List FEntry) : (w.setFront fr).failing = w.failing := rfl
@[simp] theorem Warp.setFront_stopped (w : Warp) (fr : List FEntry) : (w.setFront fr).stopped = w.stopped := rfl
@[simp] theorem Warp.setFront_yielding (w : Warp) (fr : List FEntry) : (w.setFront fr).yielding = w.yielding := rfl
@[simp] theorem Warp.setFront_same (w : Warp) : w.setFront w.front = w := rfl
@[simp] theorem State.listening_sku (s : State) : s.listening.sku = s.sku := rfl
@[simp] theorem State.listening_ddr (s : State) : s.listening.ddr = s.ddr := rfl
@[simp] theorem State.listening_ticks (s : State) : s.listening.ticks = s.ticks := rfl
@[simp] theorem State.listening_mem (s : State) : s.listening.mem = s.mem := rfl
@[simp] theorem State.listening_poison (s : State) : s.listening.poison = s.poison := rfl
@[simp] theorem State.listening_cur (s : State) : s.listening.cur = s.cur := rfl
@[simp] theorem State.listening_warps (s : State) : s.listening.warps = s.warps := rfl
@[simp] theorem State.listening_cores (s : State) : s.listening.cores = s.cores := rfl
@[simp] theorem State.listening_dies (s : State) : s.listening.dies = s.dies := rfl
@[simp] theorem State.listening_lines (s : State) : s.listening.lines = s.lines := rfl
@[simp] theorem State.listening_posted (s : State) : s.listening.posted = s.posted := rfl
@[simp] theorem State.listening_lu (s : State) : s.listening.lu = s.lu := rfl
@[simp] theorem State.listening_grids (s : State) : s.listening.grids = s.grids := rfl
@[simp] theorem State.listening_teams (s : State) : s.listening.teams = s.teams := rfl
@[simp] theorem State.listening_mmu (s : State) : s.listening.mmu = s.mmu := rfl
@[simp] theorem State.listening_err (s : State) : s.listening.err = s.err := rfl
@[simp] theorem State.listening_pwr (s : State) : s.listening.pwr = s.pwr := rfl
@[simp] theorem State.listening_mgmt (s : State) : s.listening.mgmt = s.mgmt := rfl
@[simp] theorem State.listening_net (s : State) : s.listening.net = s.net := rfl
@[simp] theorem State.listening_uses (s : State) : s.listening.uses = s.uses := rfl
@[simp] theorem State.listening_links (s : State) : s.listening.links = s.links := rfl
@[simp] theorem State.listening_machineCheck (s : State) : s.listening.machineCheck = s.machineCheck := rfl
@[simp] theorem State.listening_agenda (s : State) : s.listening.agenda = s.agenda := rfl
@[simp] theorem State.listening_stall (s : State) : s.listening.stall = s.stall := rfl
@[simp] theorem State.listening_snooped (s : State) : s.listening.snooped = some [] := rfl
@[simp] theorem State.listening_defer (s : State) : s.listening.defer = s.defer := rfl
@[simp] theorem State.listening_free (s : State) : s.listening.free = s.free := rfl
@[simp] theorem State.listening_nextUid (s : State) : s.listening.nextUid = s.nextUid := rfl
@[simp] theorem State.listening_insn (s : State) : s.listening.insn = s.insn := rfl
@[simp] theorem State.awake_sku (s : State) : s.awake.sku = s.sku := rfl
@[simp] theorem State.awake_ddr (s : State) : s.awake.ddr = s.ddr := rfl
@[simp] theorem State.awake_ticks (s : State) : s.awake.ticks = s.ticks := rfl
@[simp] theorem State.awake_mem (s : State) : s.awake.mem = s.mem := rfl
@[simp] theorem State.awake_poison (s : State) : s.awake.poison = s.poison := rfl
@[simp] theorem State.awake_cur (s : State) : s.awake.cur = s.cur := rfl
@[simp] theorem State.awake_warps (s : State) : s.awake.warps = s.warps := rfl
@[simp] theorem State.awake_cores (s : State) : s.awake.cores = s.cores := rfl
@[simp] theorem State.awake_dies (s : State) : s.awake.dies = s.dies := rfl
@[simp] theorem State.awake_lines (s : State) : s.awake.lines = s.lines := rfl
@[simp] theorem State.awake_posted (s : State) : s.awake.posted = s.posted := rfl
@[simp] theorem State.awake_lu (s : State) : s.awake.lu = s.lu := rfl
@[simp] theorem State.awake_grids (s : State) : s.awake.grids = s.grids := rfl
@[simp] theorem State.awake_teams (s : State) : s.awake.teams = s.teams := rfl
@[simp] theorem State.awake_mmu (s : State) : s.awake.mmu = s.mmu := rfl
@[simp] theorem State.awake_err (s : State) : s.awake.err = s.err := rfl
@[simp] theorem State.awake_pwr (s : State) : s.awake.pwr = s.pwr := rfl
@[simp] theorem State.awake_mgmt (s : State) : s.awake.mgmt = s.mgmt := rfl
@[simp] theorem State.awake_net (s : State) : s.awake.net = s.net := rfl
@[simp] theorem State.awake_uses (s : State) : s.awake.uses = s.uses := rfl
@[simp] theorem State.awake_links (s : State) : s.awake.links = s.links := rfl
@[simp] theorem State.awake_machineCheck (s : State) : s.awake.machineCheck = s.machineCheck := rfl
@[simp] theorem State.awake_agenda (s : State) : s.awake.agenda = s.agenda := rfl
@[simp] theorem State.awake_stall (s : State) : s.awake.stall = false := rfl
@[simp] theorem State.awake_snooped (s : State) : s.awake.snooped = s.snooped := rfl
@[simp] theorem State.awake_defer (s : State) : s.awake.defer = s.defer := rfl
@[simp] theorem State.awake_free (s : State) : s.awake.free = s.free := rfl
@[simp] theorem State.awake_nextUid (s : State) : s.awake.nextUid = s.nextUid := rfl
@[simp] theorem State.awake_insn (s : State) : s.awake.insn = s.insn := rfl

/-! ## `fresh` and `draw` -/

@[simp] theorem State.fresh_fst (s : State) : s.fresh.1 = s.nextUid := rfl
@[simp] theorem State.fresh_sku (s : State) : s.fresh.2.sku = s.sku := rfl
@[simp] theorem State.fresh_ddr (s : State) : s.fresh.2.ddr = s.ddr := rfl
@[simp] theorem State.fresh_ticks (s : State) : s.fresh.2.ticks = s.ticks := rfl
@[simp] theorem State.fresh_mem (s : State) : s.fresh.2.mem = s.mem := rfl
@[simp] theorem State.fresh_poison (s : State) : s.fresh.2.poison = s.poison := rfl
@[simp] theorem State.fresh_cur (s : State) : s.fresh.2.cur = s.cur := rfl
@[simp] theorem State.fresh_warps (s : State) : s.fresh.2.warps = s.warps := rfl
@[simp] theorem State.fresh_cores (s : State) : s.fresh.2.cores = s.cores := rfl
@[simp] theorem State.fresh_dies (s : State) : s.fresh.2.dies = s.dies := rfl
@[simp] theorem State.fresh_lines (s : State) : s.fresh.2.lines = s.lines := rfl
@[simp] theorem State.fresh_posted (s : State) : s.fresh.2.posted = s.posted := rfl
@[simp] theorem State.fresh_lu (s : State) : s.fresh.2.lu = s.lu := rfl
@[simp] theorem State.fresh_grids (s : State) : s.fresh.2.grids = s.grids := rfl
@[simp] theorem State.fresh_teams (s : State) : s.fresh.2.teams = s.teams := rfl
@[simp] theorem State.fresh_mmu (s : State) : s.fresh.2.mmu = s.mmu := rfl
@[simp] theorem State.fresh_err (s : State) : s.fresh.2.err = s.err := rfl
@[simp] theorem State.fresh_pwr (s : State) : s.fresh.2.pwr = s.pwr := rfl
@[simp] theorem State.fresh_mgmt (s : State) : s.fresh.2.mgmt = s.mgmt := rfl
@[simp] theorem State.fresh_net (s : State) : s.fresh.2.net = s.net := rfl
@[simp] theorem State.fresh_uses (s : State) : s.fresh.2.uses = s.uses := rfl
@[simp] theorem State.fresh_links (s : State) : s.fresh.2.links = s.links := rfl
@[simp] theorem State.fresh_machineCheck (s : State) : s.fresh.2.machineCheck = s.machineCheck := rfl
@[simp] theorem State.fresh_agenda (s : State) : s.fresh.2.agenda = s.agenda := rfl
@[simp] theorem State.fresh_stall (s : State) : s.fresh.2.stall = s.stall := rfl
@[simp] theorem State.fresh_snooped (s : State) : s.fresh.2.snooped = s.snooped := rfl
@[simp] theorem State.fresh_defer (s : State) : s.fresh.2.defer = s.defer := rfl
@[simp] theorem State.fresh_free (s : State) : s.fresh.2.free = s.free := rfl
@[simp] theorem State.fresh_nextUid (s : State) : s.fresh.2.nextUid = s.nextUid + 1 := rfl
@[simp] theorem State.fresh_insn (s : State) : s.fresh.2.insn = s.insn := rfl
@[simp] theorem State.draw_fst (s : State) : s.draw.1 = s.free := rfl
@[simp] theorem State.draw_sku (s : State) : s.draw.2.sku = s.sku := rfl
@[simp] theorem State.draw_ddr (s : State) : s.draw.2.ddr = s.ddr := rfl
@[simp] theorem State.draw_ticks (s : State) : s.draw.2.ticks = s.ticks := rfl
@[simp] theorem State.draw_mem (s : State) : s.draw.2.mem = s.mem := rfl
@[simp] theorem State.draw_poison (s : State) : s.draw.2.poison = s.poison := rfl
@[simp] theorem State.draw_cur (s : State) : s.draw.2.cur = s.cur := rfl
@[simp] theorem State.draw_warps (s : State) : s.draw.2.warps = s.warps := rfl
@[simp] theorem State.draw_cores (s : State) : s.draw.2.cores = s.cores := rfl
@[simp] theorem State.draw_dies (s : State) : s.draw.2.dies = s.dies := rfl
@[simp] theorem State.draw_lines (s : State) : s.draw.2.lines = s.lines := rfl
@[simp] theorem State.draw_posted (s : State) : s.draw.2.posted = s.posted := rfl
@[simp] theorem State.draw_lu (s : State) : s.draw.2.lu = s.lu := rfl
@[simp] theorem State.draw_grids (s : State) : s.draw.2.grids = s.grids := rfl
@[simp] theorem State.draw_teams (s : State) : s.draw.2.teams = s.teams := rfl
@[simp] theorem State.draw_mmu (s : State) : s.draw.2.mmu = s.mmu := rfl
@[simp] theorem State.draw_err (s : State) : s.draw.2.err = s.err := rfl
@[simp] theorem State.draw_pwr (s : State) : s.draw.2.pwr = s.pwr := rfl
@[simp] theorem State.draw_mgmt (s : State) : s.draw.2.mgmt = s.mgmt := rfl
@[simp] theorem State.draw_net (s : State) : s.draw.2.net = s.net := rfl
@[simp] theorem State.draw_uses (s : State) : s.draw.2.uses = s.uses := rfl
@[simp] theorem State.draw_links (s : State) : s.draw.2.links = s.links := rfl
@[simp] theorem State.draw_machineCheck (s : State) : s.draw.2.machineCheck = s.machineCheck := rfl
@[simp] theorem State.draw_agenda (s : State) : s.draw.2.agenda = s.agenda := rfl
@[simp] theorem State.draw_stall (s : State) : s.draw.2.stall = s.stall := rfl
@[simp] theorem State.draw_snooped (s : State) : s.draw.2.snooped = s.snooped := rfl
@[simp] theorem State.draw_defer (s : State) : s.draw.2.defer = s.defer := rfl
@[simp] theorem State.draw_free (s : State) : s.draw.2.free = s.free + 1 := rfl
@[simp] theorem State.draw_nextUid (s : State) : s.draw.2.nextUid = s.nextUid := rfl
@[simp] theorem State.draw_insn (s : State) : s.draw.2.insn = s.insn := rfl

end Sys2Proof.Machine
end

