-- ==== Sys2Proof/Laws/Issue.lean ====
section
/-! SUPPORT. What an instruction that issues plainly does, once for all: it executes in every lane of its entry, its lanes go on, its
warp stays in its slot or leaves it, and nothing else changes. -/
namespace Sys2Proof.Machine

open Sys2Proof

@[simp] theorem maskOf_nil : maskOf [] = 0 := rfl
@[simp] theorem abortLanes_nil (s : State) (w : Warp) : abortLanes s w [] = (s, w) := rfl
@[simp] theorem groupTraps_nil (a b c d e f) : groupTraps [] a b c d e f = [] := rfl
@[simp] theorem groupPages_nil (a b) : groupPages [] a b = [] := rfl

theorem Warp.lane_noTx (w : Warp) (h : w.anyTx = false) (L : Nat) : (w.lane L).txActive = false := by
  unfold Warp.anyTx at h
  unfold Warp.lane
  by_cases hl : L < w.lanes.length
  · simp only [List.getD_eq_getElem?_getD, List.getElem?_eq_getElem hl, Option.getD_some]
    have := List.any_eq_false.1 h (w.lanes[L]) (List.getElem_mem hl)
    simpa using this
  · simp [List.getD_eq_getElem?_getD, List.getElem?_eq_none (Nat.le_of_not_lt hl), Lane.absent, Lane.init, Lane.txActive, Tx.init]

/-- Outside transactions no `txe` waits, and the selected entry is that of R37. -/
theorem Warp.selected_noTx (w : Warp) (h : w.anyTx = false) : w.selected = selectEntry w.front := by
  have : w.front.find? (fun e => decide (e.park = .no) && (lanesOf w.atTxe).any (fun L => e.mask.getLsbD L && (w.lane L).txActive)) = none := by
    rw [List.find?_eq_none]
    intro e _
    simp [Warp.lane_noTx w h]
  simp [Warp.selected, this]

theorem txGate_noTx (s : State) (k : Kind) (w : Warp) (ls : List Nat) (h : w.anyTx = false) : txGate s k w ls = ([], w) := by
  have : ls.filter (fun L => (w.lane L).txActive) = [] := by
    simp [Warp.lane_noTx w h]
  simp [txGate, this]

theorem opens_settled (k : Kind) (w : Warp) (h : k.load = true → w.settled = true) : w.opens k = false := by
  unfold Warp.opens
  cases hk : k.load
  · rfl
  · have := h hk
    simp only [Warp.settled, Bool.and_eq_true, List.isEmpty_iff] at this
    simp [this.1.1, this.2]

theorem issueWait_none (s : State) (k : Kind) (w : Warp) (ls : List Nat) (hw : w.window = none) (ht : w.anyTx = false)
    (hp : k.plain = true → w.cautious ≤ 1 ∨ w.settled = true) (hl : k.load = true → w.settled = true) :
    issueWait s k w ls = none := by
  simp only [issueWait, hw, ht, opens_settled k w hl]
  split
  · rename_i h
    rcases h with ⟨h1, h2, h3⟩
    rcases hp h2 with h | h
    · simp at h1; omega
    · simp [h] at h3
  · simp

theorem snoopWarp_quiet (s : State) (line : Nat) (rc : Bool) (self : Option Nat) (u : Nat) (w : Warp)
    (h : s.warp? u = some w) (hw : w.window = none) (ht : w.anyTx = false) : s.snoopWarp line rc self u = s := by
  have : (List.range w.width).filter (fun _ => false) = [] := by simp
  simp [State.snoopWarp, h, hw, Warp.lane_noTx w ht, this]

/-- An effect in which no lane traps, parks for a page or waits for a permit, of a warp that neither speculates nor transacts. -/
structure Eff.Clean (f : Eff) : Prop where
  traps : f.traps = []
  pages : f.pages = []
  stay : f.stay = 0
  locked : f.locked = 0
  window : f.w.window = none
  noTx : f.w.anyTx = false
  noTraps : f.w.heldTraps = []

/-- Lanes that an effect moves. -/
def Eff.movers (f : Eff) : Mask := f.moves.foldl (fun m x => m ||| x.2.2) 0

/-- Lanes that go on to the next instruction, or park there. -/
def Eff.rest (c : Ctx) (f : Eff) : Mask := c.mask &&& ~~~(f.gone ||| f.movers)

/-- The frontier after a clean effect. -/
def Eff.front (c : Ctx) (f : Eff) : List FEntry :=
  let fr := f.moves.foldl (fun fr x => addLanes fr x.1 x.2.1 x.2.2) f.w.front
  match f.park with
  | none => addLanes fr c.next (f.pri.getD c.e.pri) (f.rest c)
  | some p => if f.rest c = 0 then fr else fr ++ [{ FEntry.at c.next (f.pri.getD c.e.pri) (f.rest c) with park := p }]

/-- The warp of a clean effect at the end of the instruction, before it is counted. -/
def Eff.placed (c : Ctx) (f : Eff) : Warp :=
  { f.w with
    front := f.front c
    pend := if c.dest.isEmpty then f.w.pend else dedup (f.w.pend ++ c.dest) }

theorem addEntry_ne (l : List FEntry) (e : FEntry) : addEntry l e ≠ [] := by
  cases l with
  | nil => simp [addEntry]
  | cons x t => simp only [addEntry]; split <;> simp

theorem addLanes_ne (l : List FEntry) (pc : DWord) (p : BitVec 3) (m : Mask) (h : m ≠ 0) : addLanes l pc p m ≠ [] := by
  simp only [addLanes, if_neg h]; exact addEntry_ne _ _

theorem places_clean (k : Kind) (c : Ctx) (f : Eff) (h : f.Clean) (hf : f.front c ≠ [] ∨ f.w.handler = false) :
    places k c f = (f.s, f.placed c, []) := by
  obtain ⟨h1, h2, h5, hk, hw, ht, hh⟩ := h
  have hx : (List.range f.w.width).filter (fun _ => false) = [] := by simp
  have hr : c.mask &&& ~~~(0 ||| 0 ||| f.gone ||| 0 ||| 0 ||| List.foldl (fun m x => m ||| x.2.2) 0 f.moves) = f.rest c := by
    simp [Eff.rest, Eff.movers]
  have hfree : (f.placed c).freeHandler = f.placed c := by
    unfold Warp.freeHandler
    refine if_neg ?_
    rintro ⟨a, b, -⟩; rcases hf with h | h
    · exact h b
    · exact Bool.noConfusion (h.symm.trans a)
  unfold places
  simp only [h1, h2, h5, hk, hh, List.filter_nil, List.map_nil, List.append_nil, abortLanes_nil, maskOf_nil, groupTraps_nil, groupPages_nil, hr,
    if_true, Warp.lane_noTx f.w ht, Bool.false_and, hx]
  refine Eq.trans ?_ (congrArg (fun w => (f.s, w, ([] : List HeldTrap))) hfree)
  simp only [Eff.placed, Eff.front, hh]
  all_goals rfl


/-- The warp after the bookkeeping of a clean instruction. -/
def Eff.ended (c : Ctx) (f : Eff) : Warp := (f.placed c).tally c.pc (f.s.die f.w.die).cycles

/-- The state after a clean instruction, its warp still in its slot. -/
def Eff.next (k : Kind) (c : Ctx) (f : Eff) : State :=
  { (f.s.passCycles f.w.die (k.cycles f.w)).count f.w.die f.w.core 6 (if 1 < f.w.cautious then 1 else 0) with
    snooped := none, cur := some (f.ended c) }

theorem foldl_id {α β} (g : α → β → α) (a : α) (l : List β) (h : ∀ x ∈ l, g a x = a) : l.foldl g a = a := by
  induction l with
  | nil => rfl
  | cons x t ih => rw [List.foldl_cons, h x (by simp)]; exact ih (fun y hy => h y (by simp [hy]))

theorem deliverTrap_none (s : State) (u : Nat) (w : Warp) (h : s.warp? u = some w) (hf : w.failing = false)
    (hg : w.stopped = false) (ht : w.heldTraps = []) : s.deliverTrap u = s := by
  simp [State.deliverTrap, h, hf, hg, Warp.nextTrap, ht]

/-- What a clean instruction leaves: its warp stays in its slot, or leaves it where the run ends; a warp without a lane ends. -/
theorem finish_clean (k : Kind) (c : Ctx) (f : Eff) (h : f.Clean) (hl : (f.ended c).liveMask ≠ 0) (hs : f.w.failing = false)
    (hg : f.w.stopped = false)
    (hf : f.front c ≠ [] ∨ f.w.handler = false) (ha : ∀ x ∈ f.s.warps, x.uid ≠ f.w.uid) :
    finish k c f = if (f.ended c).endsRun k f [] then (f.next k c).leaveSlot (f.ended c) else f.next k c := by
  have hp := places_clean k c f h hf
  have hlog : (f.placed c).logInsn k c.lanes (!([] : List HeldTrap).isEmpty) = f.placed c := by
    simp [Warp.logInsn, Eff.placed, h.window]
  have hl' : ¬ ((f.placed c).tally c.pc (f.s.die (f.placed c).die).cycles).liveMask = 0 := hl
  unfold finish
  rw [hp]
  simp only [closeInsn, hlog]
  rw [if_neg hl']
  have hu : (f.ended c).uid = f.w.uid := rfl
  have hw : (f.ended c).window = none := h.window
  have ht : (f.ended c).anyTx = false := h.noTx
  have e1 : (f.placed c).tally c.pc (f.s.die (f.placed c).die).cycles = f.ended c := rfl
  rw [e1]
  have hfind : ∀ y, f.s.warps.find? (fun x => x.uid == (f.ended c).uid) = y → y = none := by
    intro y hy; rw [← hy, List.find?_eq_none]; intro x hx; simpa [hu] using ha x hx
  have hin : (f.next k c).warp? (f.ended c).uid = some (f.ended c) := by
    simp [Eff.next, State.warp?]
  have hout : ((f.next k c).leaveSlot (f.ended c)).warp? (f.ended c).uid
      = some (f.ended c).offSlot := by
    have : f.s.warps.find? (fun x => x.uid == (f.ended c).uid) = none := hfind _ rfl
    simp [State.warp?, Eff.next, List.find?_append, this]
  split
  · rw [foldl_id _ _ _ (fun x _ => snoopWarp_quiet _ _ _ _ _ _ hout hw ht)]
    change (if ((f.next k c).leaveSlot (f.ended c)).cur.isNone = true then
      ((f.next k c).leaveSlot (f.ended c)).deliverTrap (f.ended c).uid else _) = _
    rw [if_pos (show ((f.next k c).leaveSlot (f.ended c)).cur.isNone = true from rfl)]
    exact deliverTrap_none _ _ _ hout hs hg h.noTraps
  · rw [foldl_id _ _ _ (fun x _ => snoopWarp_quiet _ _ _ _ _ _ hin hw ht)]
    rfl

theorem foldl_or (g : Nat → Mask) (l : List Nat) (m : Mask) (i : Nat) :
    (l.foldl (fun m L => m ||| g L) m).getLsbD i = (m.getLsbD i || l.any (fun L => (g L).getLsbD i)) := by
  induction l generalizing m with
  | nil => simp
  | cons x t ih => simp [ih, Bool.or_assoc]

theorem laneBit_getLsbD (L i : Nat) : (laneBit L).getLsbD i = (decide (i < 64) && decide (i = L)) := by
  unfold laneBit
  rw [BitVec.getLsbD_shiftLeft]
  by_cases h : i < 64 <;> simp [h]
  by_cases h2 : i < L
  · simp [h2]; omega
  · simp [h2]; omega

theorem maskOf_lanesOf (m : Mask) : maskOf (lanesOf m) = m := by
  apply BitVec.eq_of_getLsbD_eq
  intro i hi
  unfold maskOf
  rw [foldl_or, show (0 : Mask).getLsbD i = false from BitVec.getLsbD_zero, Bool.false_or]
  simp only [laneBit_getLsbD, hi, decide_true, Bool.true_and]
  by_cases h : m.getLsbD i
  · rw [h, List.any_eq_true]; exact ⟨i, by simp [lanesOf, h, hi], by simp⟩
  · simp at h; rw [h, List.any_eq_false]; intro x hx; simp [lanesOf] at hx; simp; rintro rfl; simp [hx.2] at h

theorem mem_lanesOf (m : Mask) (L : Nat) : L ∈ lanesOf m ↔ m.getLsbD L = true := by
  simp only [lanesOf, List.mem_filter, List.mem_range]
  exact ⟨fun h => h.2, fun h => ⟨BitVec.lt_of_getLsbD h, h⟩⟩

theorem filter_true {α} (l : List α) : l.filter (fun _ => true) = l := by simp

theorem filterMap_none {α β} (g : α → Option β) (l : List α) (h : ∀ x ∈ l, g x = none) : l.filterMap g = [] := by
  simpa [List.filterMap_eq_nil_iff] using h

/-! ## The frontier keeps lanes -/

/-- All lanes of a frontier. -/
def frontMask (l : List FEntry) : Mask := l.foldl (fun m e => m ||| e.mask) 0

theorem foldl_orE (l : List FEntry) (m : Mask) (i : Nat) :
    (l.foldl (fun m e => m ||| e.mask) m).getLsbD i = (m.getLsbD i || l.any (fun e => e.mask.getLsbD i)) := by
  induction l generalizing m with
  | nil => simp
  | cons x t ih => simp [ih, Bool.or_assoc]

theorem frontMask_getLsbD (l : List FEntry) (i : Nat) : (frontMask l).getLsbD i = l.any (fun e => e.mask.getLsbD i) := by
  unfold frontMask
  rw [foldl_orE, show (0 : Mask).getLsbD i = false from BitVec.getLsbD_zero, Bool.false_or]

theorem addEntry_any (l : List FEntry) (e : FEntry) (i : Nat) :
    (addEntry l e).any (fun x => x.mask.getLsbD i) = (l.any (fun x => x.mask.getLsbD i) || e.mask.getLsbD i) := by
  induction l with
  | nil => simp [addEntry]
  | cons x t ih =>
    simp only [addEntry]
    split
    · simp only [List.any_cons, BitVec.getLsbD_or]
      cases x.mask.getLsbD i <;> cases e.mask.getLsbD i <;> simp
    · simp only [List.any_cons, ih, Bool.or_assoc]

theorem addLanes_any (l : List FEntry) (pc : DWord) (p : BitVec 3) (m : Mask) (i : Nat) :
    (addLanes l pc p m).any (fun x => x.mask.getLsbD i) = (l.any (fun x => x.mask.getLsbD i) || m.getLsbD i) := by
  unfold addLanes
  split
  · rename_i h; rw [h, show (0 : Mask).getLsbD i = false from BitVec.getLsbD_zero, Bool.or_false]
  · rw [addEntry_any]; rfl

theorem exists_lane (m : Mask) (h : m ≠ 0) : ∃ i, m.getLsbD i = true := by
  apply Classical.byContradiction
  intro hn
  apply h
  apply BitVec.eq_of_getLsbD_eq
  intro i hi
  rw [show (0 : Mask).getLsbD i = false from BitVec.getLsbD_zero]
  cases hc : m.getLsbD i
  · rfl
  · exact absurd ⟨i, hc⟩ hn

/-- A warp whose frontier has a lane is not at its end. -/
theorem liveMask_ne (w : Warp) (i : Nat) (h : w.front.any (fun x => x.mask.getLsbD i) = true) : w.liveMask ≠ 0 := by
  intro hz
  have h1 : w.liveMask.getLsbD i = true := by
    unfold Warp.liveMask
    rw [BitVec.getLsbD_or, foldl_orE, List.any_append, h]; simp
  rw [hz, show (0 : Mask).getLsbD i = false from BitVec.getLsbD_zero] at h1
  exact Bool.noConfusion h1

/-! ## Issue -/

/-- Lanes whose source words hold no correctable error count and change nothing (R306). -/
theorem readSoft_none (k : Kind) (s : State) (w : Warp) (m : Mask) (h : ∀ L, m.getLsbD L = true → k.softReads w (w.lane L) = []) :
    readSoft k s w m = (s, w) := by
  unfold readSoft
  have : (lanesOf m).foldl (fun n L => n + (k.softReads w (w.lane L)).length) 0 = 0 :=
    foldl_id _ _ _ (fun L hL => by rw [h L ((mem_lanesOf _ _).1 hL)]; rfl)
  simp [this]

/-- What is fixed as an instruction issues from an entry all of whose lanes execute it. -/
def Kind.at (k : Kind) (w : Warp) (e : FEntry) : Ctx :=
  { e := e, pc := e.pc, next := e.pc + BitVec.ofNat 64 k.len, mask := e.mask, dest := k.leaves w e, handler := w.handler }

/-- An instruction of a warp that runs plainly executes in every lane of its entry. -/
theorem issue_runs (k : Kind) (body : Ctx → State → Warp → Eff) (s : State) (w : Warp) (e : FEntry) (r : Runs s w e)
    (hbad : k.bad = false) (hb : k.u.regs.any (fun x => x.beyond w.alloc) = false)
    (hc : ∀ L, e.mask.getLsbD L = true → laneCheck k (w.setFront (dropLanes w.front e.mask)) L = none ∧ k.softReads w (w.lane L) = [])
    (hp : k.plain = true → w.cautious ≤ 1 ∨ w.settled = true)
    (hl : k.load = true → w.settled = true) (hn : k.noHandler = true → w.handler = false)
    (f : Eff) (hf : body (k.at w e) s.awake.listening
      (w.setFront (dropLanes w.front e.mask)) = f) (hs : f.stall = false) (hw : f.w.window = none) :
    issue k body s = .next (finish k (k.at w e) f) := by
  have hd : directHazard k w (lanesOf e.mask) = none := by simp [directHazard, r.pend]
  have ho : openWindow k (w.setFront w.front) e.pc = (w, false) := by
    simp [openWindow, r.window, opens_settled k w hl]
  have hnh : ¬ (k.noHandler = true ∧ w.handler = true) := by
    rintro ⟨a, b⟩; simp [hn a] at b
  have hpre : preTraps k (w.setFront (dropLanes w.front e.mask)) e e.mask = [] := by
    apply filterMap_none
    intro L hL
    have h1 : laneCheck k (w.setFront (dropLanes w.front e.mask)) L = none := (hc L ((mem_lanesOf _ _).1 hL)).1
    simp [r.pfail, h1]
  have hall : ¬((lanesOf e.mask).all (fun L => e.pfail.any (fun x => x.1.getLsbD L)) = true) := by
    obtain ⟨L, hL⟩ := exists_lane _ r.active
    simp only [r.pfail, List.any_nil, List.all_eq_true, not_forall]
    exact ⟨L, (mem_lanesOf _ _).2 hL, by simp⟩
  have hm : e.mask &&& ~~~(0 : Mask) = e.mask := by
    rw [show ~~~(0 : Mask) = BitVec.allOnes 64 from BitVec.not_zero]; exact BitVec.and_allOnes
  have hsoft := readSoft_none k s.awake (w.setFront (dropLanes w.front e.mask)) e.mask (fun L hL => (hc L hL).2)
  unfold Kind.at at hf
  unfold issue
  rw [r.cur]
  simp only [r.selected]
  unfold issueAt
  simp only [hbad, hb, hd, txGate_noTx _ _ _ _ r.noTx, List.any_nil, Bool.not_false, filter_true, maskOf_lanesOf, Bool.false_eq_true,
    or_self, if_false, Option.isSome_none, false_or]
  rw [if_neg hall]
  simp only [issueWait_none _ k w _ r.window r.noTx hp hl, ho, abortLanes_nil, if_neg hnh, execute, hpre, List.map_nil, maskOf_nil, hm,
    hsoft, if_neg r.active, hf, hs, hw, List.nil_append, Option.isSome_none, Bool.false_eq_true, false_and, if_false]
  cases f; cases hs; rfl

/-! ## Operands -/

theorem inOrder_resolve (alloc : Nat) (l : Lane) (r : VReg) (n : Nat) (h : VReg.inOrder alloc l (r, n) = true) :
    (resolve alloc l r n).isSome = true := by
  cases r with
  | z => rfl
  | v k => rfl
  | ix j =>
    simp only [VReg.inOrder, Bool.and_eq_true, decide_eq_true_eq] at h
    obtain ⟨⟨h1, h2⟩, h3⟩ := h
    have h3' : (l.xr.getD j.val 0).toInt.toNat % regAlign n = 0 := h3
    simp only [resolve]
    rw [if_pos ⟨h1, h2, h3'⟩]; rfl

theorem foldl_keep {β} (l : List β) (p : β → Bool) (g : β → Nat) (m : Nat) (h : ∀ x ∈ l, p x = false) :
    l.foldl (fun m x => if p x then m ||| g x else m) m = m := by
  induction l generalizing m with
  | nil => rfl
  | cons x t ih => simp [h x (by simp)]; simpa using ih m (fun y hy => h y (by simp [hy]))

/-- Operands in order and free of errors pass the checks before execution, and nothing is corrected as they are read. -/
theorem laneCheck_ready (k : Kind) (w : Warp) (L : Nat) (hp : w.pend = []) (hfar : k.far w L = (0, []))
    (h : ∀ x ∈ k.u.regs, VReg.inOrder w.alloc (w.lane L) (x.r, x.n) = true)
    (hs : ∀ x ∈ k.u.regs, x.src = true → VReg.sound (w.lane L) (x.r, x.n) = true) :
    laneCheck k w L = none ∧ k.softReads w (w.lane L) = [] := by
  generalize hl : w.lane L = l at h hs ⊢
  have h1 : k.u.badIndex w.alloc l = 0 := by
    unfold Uses.badIndex
    apply foldl_keep (p := fun x : Use => (resolve w.alloc l x.r x.n).isNone)
    intro x hx
    have := inOrder_resolve _ _ _ _ (h x hx)
    cases hr : resolve w.alloc l x.r x.n <;> simp [hr] at this ⊢
  have h3 : ∀ r ∈ k.u.sources w.alloc l, l.badRegs.contains r = false ∧ l.softRegs.contains r = false := by
    intro r hr
    simp only [Uses.sources, List.mem_flatMap, List.mem_filter] at hr
    obtain ⟨x, ⟨hx, hsrc⟩, hr⟩ := hr
    have ha := h x hx
    have hb := hs x hx hsrc
    revert hr
    obtain ⟨xf, xr, xn, xs, xd⟩ := x
    cases xr with
    | z => simp [resolve]
    | v j =>
      simp only [resolve, List.mem_map, List.mem_range]
      rintro ⟨i, hi, rfl⟩
      simp only [VReg.sound, List.all_eq_true, List.mem_range, Bool.and_eq_true, Bool.not_eq_true'] at hb
      simpa only [Nat.add_comm] using hb i hi
    | ix j =>
      simp only [VReg.inOrder, Bool.and_eq_true, decide_eq_true_eq] at ha
      obtain ⟨⟨h1, h2⟩, h3⟩ := ha
      have h3' : (l.xr.getD j.val 0).toInt.toNat % regAlign xn = 0 := h3
      simp only [resolve]
      rw [if_pos ⟨h1, h2, h3'⟩]
      simp only [List.mem_map, List.mem_range]
      rintro ⟨i, hi, rfl⟩
      simp only [VReg.sound, List.all_eq_true, List.mem_range, Bool.and_eq_true, Bool.not_eq_true'] at hb
      simpa only [Nat.add_comm] using hb i hi
  have h2 : (k.u.indexed w.alloc l ++ ([] : List Nat)).filter (fun r => w.pend.contains r) = [] := by simp [hp]
  constructor
  · unfold laneCheck
    simp only [hl, hfar, h1, h2, least, Nat.or_zero, ne_eq, not_true_eq_false, if_false]
    rw [List.any_eq_false.2 (fun r hr => by rw [(h3 r hr).1]; exact Bool.false_ne_true)]; rfl
  · unfold Kind.softReads
    rw [List.filter_eq_nil_iff]
    intro r hr hm
    have := (h3 r (List.contains_iff_mem.1 hm)).2
    simp [hr] at this

/-- Operands in order lie in the allocation. -/
theorem beyond_ready (k : Kind) (alloc : Nat) (l : Lane) (h : ∀ x ∈ k.u.regs, VReg.inOrder alloc l (x.r, x.n) = true) :
    k.u.regs.any (fun x => x.beyond alloc) = false := by
  rw [List.any_eq_false]
  intro x hx
  have := h x hx
  obtain ⟨xf, xr, xn, xs, xd⟩ := x
  cases xr <;> simp_all [VReg.inOrder, Use.beyond]

/-! ## Instructions on registers -/

@[simp] theorem lane_setFront (w : Warp) (fr : List FEntry) (L : Nat) : (w.setFront fr).lane L = w.lane L := rfl

theorem quiet_modify (l : List Core) (i : Nat) (g : Core → Core) (h : ∀ c, (g c).quiet = c.quiet) :
    (l.modify i g).map Core.quiet = l.map Core.quiet := by
  apply List.ext_getElem
  · simp
  · intro n h1 h2
    simp only [List.getElem_map, List.getElem_modify]
    split
    · subst_vars; exact h _
    · rfl

theorem quiet_pass (l : List Die) (n : Nat) : (l.map (Die.pass n)).map Die.quiet = l.map Die.quiet := by
  simp only [List.map_map]; rfl

/-- The package after a clean instruction that changed nothing of it. -/
theorem next_quiet (k : Kind) (c : Ctx) (f : Eff) : (f.next k c).quiet = f.s.quiet := by
  unfold State.quiet Eff.next
  simp only [State.count_cores, State.count_dies, State.passCycles_cores, State.passCycles_dies, quiet_pass]
  rw [quiet_modify]
  · rfl
  · intro c; rfl

theorem leaveSlot_quiet (s : State) (w : Warp) : (s.leaveSlot w).quiet = s.quiet := by
  unfold State.quiet
  simp only [State.leaveSlot_cores, State.modCore_cores]
  rw [quiet_modify]
  · rfl
  · intro c; rfl

theorem next_other (k : Kind) (c : Ctx) (f : Eff) (u : Nat) (hu : u ≠ f.w.uid) (hc : ∀ x, f.s.cur = some x → x.uid = f.w.uid) :
    (f.next k c).warp? u = f.s.warp? u := by
  have h1 : (f.ended c).uid = f.w.uid := rfl
  have h2 : (f.next k c).cur = some (f.ended c) := rfl
  have h3 : (f.next k c).warps = f.s.warps := rfl
  unfold State.warp?
  rw [h2, h3]
  simp only [h1, if_neg (Ne.symm hu)]
  cases hx : f.s.cur with
  | none => rfl
  | some x => simp [hc x hx, Ne.symm hu]

theorem leaveSlot_other (s : State) (w : Warp) (u : Nat) (hu : u ≠ w.uid) (hc : s.cur = some w) :
    (s.leaveSlot w).warp? u = s.warp? u := by
  unfold State.warp?
  rw [hc]
  simp only [State.leaveSlot_cur, State.leaveSlot_warps, if_neg (Ne.symm hu), List.find?_append]
  have : [w.offSlot].find? (fun x => x.uid == u) = none := by simp [Ne.symm hu]
  rw [this]; simp

/-- The warp's end in either way a clean instruction closes. -/
theorem clean_ends (k : Kind) (c : Ctx) (f : Eff) (ha : ∀ x ∈ f.s.warps, x.uid ≠ f.w.uid)
    (hc : ∀ x, f.s.cur = some x → x.uid = f.w.uid) (t : State)
    (ht : t = if (f.ended c).endsRun k f [] then (f.next k c).leaveSlot (f.ended c) else f.next k c) :
    ∃ w', t.warp? f.w.uid = some w' ∧ w'.front = f.front c ∧ w'.lanes = f.w.lanes ∧ w'.sregs = f.w.sregs ∧
      w'.quiet = f.w.quiet ∧ w'.pend = (f.placed c).pend ∧ (∀ u, u ≠ f.w.uid → t.warp? u = f.s.warp? u) ∧
      t.quiet = f.s.quiet := by
  have hu : (f.ended c).uid = f.w.uid := rfl
  split at ht
  · refine ⟨(f.ended c).offSlot, ?_, rfl, rfl, rfl, rfl, rfl, ?_, ?_⟩
    · have : f.s.warps.find? (fun x => x.uid == f.w.uid) = none := by
        rw [List.find?_eq_none]; intro x hx; simpa using ha x hx
      have hw : (f.next k c).warps = f.s.warps := rfl
      rw [ht]; simp [State.warp?, hw, List.find?_append, this, hu]
    · intro u hne
      rw [ht, leaveSlot_other (f.next k c) (f.ended c) u hne rfl, next_other k c f u hne hc]
    · rw [ht, leaveSlot_quiet, next_quiet]
  · refine ⟨f.ended c, ?_, rfl, rfl, rfl, rfl, rfl, ?_, ?_⟩
    · rw [ht]; simp [State.warp?, Eff.next, hu]
    · intro u hne
      rw [ht, next_other k c f u hne hc]
    · rw [ht, next_quiet]

theorem mapIdx_lane (w : Warp) (m : Mask) (g : Nat → Lane → Lane) (h : ∀ L, m.getLsbD L = true → L < w.lanes.length) (L : Nat) :
    Warp.lane { w with lanes := w.lanes.mapIdx (fun i l => if m.getLsbD i then g i l else l) } L
      = if m.getLsbD L then g L (w.lane L) else w.lane L := by
  unfold Warp.lane
  simp only [List.getD_eq_getElem?_getD, List.getElem?_mapIdx]
  by_cases hl : L < w.lanes.length
  · simp [List.getElem?_eq_getElem hl]
  · have : m.getLsbD L = false := by
      cases hm : m.getLsbD L
      · rfl
      · exact absurd (h L hm) hl
    simp [List.getElem?_eq_none (Nat.le_of_not_lt hl), this]

/-! ## Pending results -/

theorem mem_setPut (l : List Nat) (a r : Nat) : r ∈ setPut l a ↔ r ∈ l ∨ r = a := by
  induction l with
  | nil => simp [setPut]
  | cons k t ih =>
    simp only [setPut]
    split
    · simp [ih, or_assoc]
    · split
      · subst_vars
        simp only [List.mem_cons]
        exact ⟨Or.inl, fun h => h.elim id Or.inl⟩
      · simp only [List.mem_cons]; tauto

theorem mem_foldl_setPut (l acc : List Nat) (r : Nat) : r ∈ l.foldl setPut acc ↔ r ∈ acc ∨ r ∈ l := by
  induction l generalizing acc with
  | nil => simp
  | cons x t ih => rw [List.foldl_cons, ih, mem_setPut, List.mem_cons, or_assoc]

theorem mem_dedup (l : List Nat) (r : Nat) : r ∈ dedup l ↔ r ∈ l := by
  unfold dedup; rw [mem_foldl_setPut]; simp

/-- What is pending after a clean instruction (R47). -/
theorem mem_placed_pend (c : Ctx) (f : Eff) (r : Nat) : r ∈ (f.placed c).pend ↔ r ∈ f.w.pend ∨ r ∈ c.dest := by
  unfold Eff.placed
  cases h : c.dest with
  | nil => simp
  | cons x t => simp [mem_dedup]

/-- An instruction whose destinations are not of variable latency leaves nothing pending. -/
theorem leaves_none (k : Kind) (w : Warp) (e : FEntry) (h : k.u.var = false) : k.leaves w e = [] := by
  simp [Kind.leaves, h]

/-- A field in order names the registers it resolves to. -/
theorem names_resolve (alloc : Nat) (l : Lane) (x : VReg × Nat) (h : VReg.inOrder alloc l x = true) (r : Nat) :
    r ∈ (match resolve alloc l x.1 x.2 with | some (some k) => (List.range x.2).map (· + k) | _ => []) ↔ VReg.names l x r := by
  obtain ⟨v, n⟩ := x
  cases v with
  | z => simp [resolve, VReg.names]
  | v k =>
    simp only [resolve, VReg.names, List.mem_map, List.mem_range]
    exact ⟨fun ⟨i, hi, he⟩ => by omega, fun ⟨h1, h2⟩ => ⟨r - k.val, by omega, by omega⟩⟩
  | ix j =>
    simp only [VReg.inOrder, Bool.and_eq_true, decide_eq_true_eq] at h
    obtain ⟨⟨h1, h2⟩, h3⟩ := h
    have h3' : (l.xr.getD j.val 0).toInt.toNat % regAlign n = 0 := h3
    simp only [resolve, VReg.names]
    rw [if_pos ⟨h1, h2, h3'⟩]
    simp only [List.mem_map, List.mem_range]
    exact ⟨fun ⟨i, hi, he⟩ => by omega, fun ⟨h1, h2⟩ => ⟨r - (l.xr.getD j.val 0).toInt.toNat, by omega, by omega⟩⟩

/-- What an instruction of variable latency leaves pending: its destinations in the lanes of its entry (R47). -/
theorem mem_leaves (k : Kind) (w : Warp) (e : FEntry) (hp : e.pfail = []) (ha : e.mask ≠ 0) (hv : k.u.var = true)
    (hd : ∀ L, e.mask.getLsbD L = true → ∀ x ∈ k.u.regs, x.dst = true → VReg.inOrder w.alloc (w.lane L) (x.r, x.n) = true)
    (r : Nat) : r ∈ k.leaves w e ↔
      r ∈ k.u.sd.map (· + 0x80) ++ (k.u.pd.filter (fun p => p.val != 7)).map (fun p => p.val + 0xC0) ∨
      ∃ L, e.mask.getLsbD L = true ∧ ∃ x ∈ (k.u.regs.filter (·.dst)).map (fun x => (x.r, x.n)), VReg.names (w.lane L) x r := by
  have hls : (lanesOf e.mask).filter (fun L => !e.pfail.any (fun x => x.1.getLsbD L)) = lanesOf e.mask := by simp [hp]
  obtain ⟨i, hi⟩ := exists_lane e.mask ha
  have hne : (lanesOf e.mask).isEmpty = false := by
    cases hl : lanesOf e.mask with
    | nil => have := (mem_lanesOf e.mask i).2 hi; rw [hl] at this; simp at this
    | cons => rfl
  unfold Kind.leaves
  rw [hls]
  simp only [hv, hne, Bool.not_false, Bool.and_self, if_true, Uses.pending, List.append_assoc, List.mem_append, mem_dedup,
    List.mem_flatMap, Uses.dests]
  constructor
  · rintro (⟨L, hL, x, hx, hr⟩ | h)
    · refine Or.inr ⟨L, (mem_lanesOf _ _).1 hL, (x.r, x.n), List.mem_map.2 ⟨x, hx, rfl⟩, ?_⟩
      exact (names_resolve w.alloc (w.lane L) (x.r, x.n)
        (hd L ((mem_lanesOf _ _).1 hL) x (List.mem_filter.1 hx).1 (List.mem_filter.1 hx).2) r).1 hr
    · exact Or.inl h
  · rintro (h | ⟨L, hL, y, hy, hr⟩)
    · exact Or.inr h
    · obtain ⟨x, hx, rfl⟩ := List.mem_map.1 hy
      refine Or.inl ⟨L, (mem_lanesOf _ _).2 hL, x, hx, ?_⟩
      exact (names_resolve w.alloc (w.lane L) (x.r, x.n)
        (hd L hL x (List.mem_filter.1 hx).1 (List.mem_filter.1 hx).2) r).2 hr

theorem pends_none (k : Kind) (w : Warp) (e : FEntry) (h : k.u.var = false) : Pends w e [] [] { w with pend := k.leaves w e } := by
  intro r _; simp [leaves_none k w e h]

/-- The destinations of an instruction of variable latency become pending. -/
theorem pends_var (k : Kind) (s : State) (w : Warp) (e : FEntry) (src dst : List (VReg × Nat)) (h : Issues s w e)
    (ho : OperandsReady w e src dst)
    (hu : ∀ x ∈ k.u.regs, (x.r, x.n) ∈ src ++ dst ∧ (x.src = true → (x.r, x.n) ∈ src)) (hv : k.u.var = true) :
    Pends w e ((k.u.regs.filter (·.dst)).map (fun x => (x.r, x.n)))
      (k.u.sd.map (· + 0x80) ++ (k.u.pd.filter (fun p => p.val != 7)).map (fun p => p.val + 0xC0))
      { w with pend := k.leaves w e } := by
  intro r _
  refine mem_leaves k w e h.pfail h.active hv (fun L hL x hx _ => ?_) r
  have := ho L hL
  simp only [Lane.ready, Bool.and_eq_true, List.all_eq_true] at this
  exact this.1 _ (hu x hx).1

/-- What holds of a clean instruction of `issue` whose effect leaves the package alone. -/
theorem issue_registers (k : Kind) (body : Ctx → State → Warp → Eff) (s : State) (w : Warp) (e : FEntry) (r : Runs s w e)
    (hc : ∀ L, e.mask.getLsbD L = true → (∀ x ∈ k.u.regs, VReg.inOrder w.alloc (w.lane L) (x.r, x.n) = true) ∧
      ∀ x ∈ k.u.regs, x.src = true → VReg.sound (w.lane L) (x.r, x.n) = true)
    (hbad : k.bad = false) (hfar : k.far = fun _ _ => (0, [])) (hp : k.plain = true → w.cautious ≤ 1 ∨ w.settled = true)
    (hl : k.load = true → w.settled = true) (hn : k.noHandler = true → w.handler = false)
    (f : Eff) (hf : body (k.at w e) s.awake.listening
      (w.setFront (dropLanes w.front e.mask)) = f)
    (hst : f.stall = false) (hs : f.s = s.awake.listening) (hcl : f.Clean) (hw : f.w.quiet = w.quiet)
    (hfr : f.front (k.at w e) ≠ [] ∨ f.w.handler = false)
    (hli : ∃ i, (f.front (k.at w e)).any (fun x => x.mask.getLsbD i) = true) :
    ∃ t w', issue k body s = .next t ∧ t.warp? w.uid = some w' ∧
      w'.front = f.front (k.at w e) ∧ w'.lanes = f.w.lanes ∧ w'.sregs = f.w.sregs ∧
      w'.quiet = w.quiet ∧ w'.pend = (f.placed (k.at w e)).pend ∧
      (∀ u, u ≠ w.uid → t.warp? u = s.warp? u) ∧ t.quiet = s.quiet := by
  have hu : f.w.uid = w.uid := by have := congrArg Warp.uid hw; exact this
  have hfail : f.w.failing = false := by
    have := congrArg Warp.failing hw; exact this.trans r.sound
  have hgo : f.w.stopped = false := by
    have := congrArg Warp.stopped hw; exact this.trans r.going
  obtain ⟨L0, hL0⟩ := exists_lane e.mask r.active
  have hi := issue_runs k body s w e r hbad (beyond_ready k w.alloc (w.lane L0) (hc L0 hL0).1)
    (fun L hL => laneCheck_ready k (w.setFront (dropLanes w.front e.mask)) L r.pend (by rw [hfar]) (hc L hL).1 (hc L hL).2) hp hl hn f hf hst hcl.window
  obtain ⟨i, hlive⟩ := hli
  have hfin := finish_clean k (k.at w e) f hcl (liveMask_ne _ i hlive) hfail hgo hfr
    (by rw [hs, hu]; exact r.alone)
  obtain ⟨w', h1, h2, h3, h4, h5, h6, h7, h8⟩ := clean_ends k (k.at w e) f
    (by rw [hs, hu]; exact r.alone) (by
      rw [hs, hu]; intro x hx; rw [show s.awake.listening.cur = s.cur from rfl, r.cur] at hx; cases hx; rfl) _ hfin
  refine ⟨_, w', hi, hu ▸ h1, h2, h3, h4, h5.trans hw, h6, ?_, ?_⟩
  · intro u hne
    rw [h7 u (by rw [hu]; exact hne), hs]; rfl
  · rw [h8, hs]; rfl

/-- Operands ready are in order for the checks of a kind whose uses they list. -/
theorem ready_uses (k : Kind) (w : Warp) (e : FEntry) (src dst : List (VReg × Nat)) (ho : OperandsReady w e src dst)
    (hu : ∀ x ∈ k.u.regs, (x.r, x.n) ∈ src ++ dst ∧ (x.src = true → (x.r, x.n) ∈ src)) (L : Nat)
    (hL : e.mask.getLsbD L = true) : (∀ x ∈ k.u.regs, VReg.inOrder w.alloc (w.lane L) (x.r, x.n) = true) ∧
      ∀ x ∈ k.u.regs, x.src = true → VReg.sound (w.lane L) (x.r, x.n) = true := by
  have := ho L hL
  simp only [Lane.ready, Bool.and_eq_true, List.all_eq_true] at this
  exact ⟨fun x hx => this.1 _ (hu x hx).1, fun x hx hs => this.2 _ ((hu x hx).2 hs)⟩

/-- An effect with nobody moving and no change of priority leaves the lanes at the next instruction. -/
theorem front_stay (c : Ctx) (f : Eff) (h1 : f.moves = []) (h2 : f.gone = 0) (h3 : f.park = none) (h4 : f.pri = none) :
    f.front c = addLanes f.w.front c.next c.e.pri c.mask := by
  have : c.mask &&& ~~~((0 : Mask) ||| 0) = c.mask := by
    rw [show ~~~((0 : Mask) ||| 0) = BitVec.allOnes 64 from by decide]; exact BitVec.and_allOnes
  simp only [Eff.front, h1, h2, h3, h4, List.foldl_nil, Eff.rest, Eff.movers, Option.getD_none, this]

/-- What completes: an effect in which nobody traps or moves, and only registers change. -/
theorem issue_completes (i : Instr) (k : Kind) (body : Ctx → State → Warp → Eff) (he : ∀ s, exec i s = issue k body s)
    (src dst : List (VReg × Nat)) (hu : ∀ x ∈ k.u.regs, (x.r, x.n) ∈ src ++ dst ∧ (x.src = true → (x.r, x.n) ∈ src))
    (hbad : k.bad = false) (hfar : k.far = fun _ _ => (0, [])) (hp : k.plain = false) (hl : k.load = false) (hn : k.noHandler = false)
    (s : State) (w : Warp) (e : FEntry) (r : Runs s w e) (ho : OperandsReady w e src dst)
    (var : List (VReg × Nat)) (more : List Nat) (hv : Pends w e var more { w with pend := k.leaves w e })
    (f : Eff) (hf : body (k.at w e) s.awake.listening
      (w.setFront (dropLanes w.front e.mask)) = f)
    (hst : f.stall = false) (hs : f.s = s.awake.listening) (h0 : f.traps = []) (h1 : f.pages = []) (h2 : f.stay = 0)
    (hlk : f.locked = 0) (ht : f.w.anyTx = false) (hw : f.w.quiet = w.quiet) (h3 : f.moves = []) (h4 : f.gone = 0) (h5 : f.park = none)
    (h6 : f.pri = none) (h7 : f.w.front = dropLanes w.front e.mask) (h8 : f.w.pend = w.pend) :
    Completes i k.len s w e (fun w' => w'.sregs = f.w.sregs ∧ w'.lanes = f.w.lanes) var more := by
  have hcl : f.Clean := ⟨h0, h1, h2, hlk, (congrArg Warp.window hw).trans r.window, ht, (congrArg Warp.heldTraps hw).trans r.noTraps⟩
  have hq : f.front (k.at w e) = addLanes f.w.front (e.pc + BitVec.ofNat 64 k.len) e.pri e.mask := front_stay (k.at w e) f h3 h4 h5 h6
  obtain ⟨i0, hi0⟩ := exists_lane e.mask r.active
  obtain ⟨t, w', g1, g2, g3, g4, g5, g6, g7, g8, g9⟩ := issue_registers k body s w e r
    (fun L hL => ready_uses k w e src dst ho hu L hL)
    hbad hfar (by simp [hp]) (by simp [hl]) (by simp [hn]) f hf hst hs hcl hw
    (by rw [hq]; exact Or.inl (addLanes_ne _ _ _ _ r.active))
    ⟨i0, by rw [hq, addLanes_any]; simp [hi0]⟩
  refine ⟨t, w', (he s).trans g1, ⟨g2, ?_, ?_, g6, g8⟩, g9, ?_, g5, g4⟩
  · rw [g3, hq, h7]
  · intro r0 h0
    rw [← hv r0 h0, g7, mem_placed_pend, h8, r.pend]
    simp [Kind.at]
  · intro a
    have : t.mem = s.mem := by have := congrArg State.mem g9; exact this
    rw [this]

/-- Lanes changed by an effect on each lane alone keep out of transactions. -/
theorem perLane_noTx (w : Warp) (m : Mask) (g : Nat → Lane → Lane) (hg : ∀ L l, (g L l).tx = l.tx) (h : w.anyTx = false) :
    Warp.anyTx { w with lanes := w.lanes.mapIdx (fun i l => if m.getLsbD i then g i l else l) } = false := by
  simp only [Warp.anyTx, List.any_eq_false] at h ⊢
  intro l hl
  simp only [List.mem_mapIdx] at hl
  obtain ⟨j, hj, rfl⟩ := hl
  have h0 := h _ (List.getElem_mem hj)
  split
  · simpa [Lane.txActive, hg] using h0
  · exact h0

/-- Instructions that act in each lane on that lane alone: where no lane traps, each lane of the entry becomes what they make of it. -/
theorem issue_perLane (i : Instr) (k : Kind) (body : Ctx → State → Warp → Eff) (src dst : List (VReg × Nat))
    (he : ∀ s, exec i s = issue k body s)
    (hu : ∀ x ∈ k.u.regs, (x.r, x.n) ∈ src ++ dst ∧ (x.src = true → (x.r, x.n) ∈ src))
    (hbad : k.bad = false) (hfar : k.far = fun _ _ => (0, [])) (hp : k.plain = false) (hl : k.load = false) (hn : k.noHandler = false)
    (s : State) (w : Warp) (e : FEntry) (r : Runs s w e) (ho : OperandsReady w e src dst)
    (var : List (VReg × Nat)) (more : List Nat) (hv : Pends w e var more { w with pend := k.leaves w e }) (g : Nat → Lane → LaneOut)
    (hb : body (k.at w e) s.awake.listening (w.setFront (dropLanes w.front e.mask)) =
      Eff.perLane (k.at w e) s.awake.listening (w.setFront (dropLanes w.front e.mask)) g)
    (hgt : ∀ L l, (g L l).l.tx = l.tx) (hno : ∀ L, e.mask.getLsbD L = true → (g L (w.lane L)).trap = none) :
    Completes i k.len s w e (fun w' => w'.sregs = w.sregs ∧
      ∀ L, w'.lane L = if e.mask.getLsbD L then (g L (w.lane L)).l else w.lane L) var more := by
  obtain ⟨t, w', h1, h2, h3, h4, h5, h6⟩ := issue_completes i k body he src dst hu hbad hfar hp hl hn s w e r ho var more hv _ hb rfl rfl (by
      simp only [Eff.perLane]
      apply filterMap_none
      intro x hx
      simp only [List.mem_map] at hx
      obtain ⟨L, hL, rfl⟩ := hx
      have : (g L (w.lane L)).trap = none := hno L ((mem_lanesOf _ _).1 hL)
      simp only [lane_setFront, this]; rfl) rfl rfl rfl (perLane_noTx _ _ (fun L l => (g L l).l) hgt r.noTx) rfl rfl rfl rfl rfl rfl rfl
  refine ⟨t, w', h1, h2, h3, h4, h5, ?_⟩
  intro L
  have h4' : w'.lane L = Warp.lane { (w.setFront (dropLanes w.front e.mask)) with
      lanes := (w.setFront (dropLanes w.front e.mask)).lanes.mapIdx (fun i l => if e.mask.getLsbD i then (g i l).l else l) } L := by
    unfold Warp.lane; rw [h6]; rfl
  rw [h4', mapIdx_lane (w.setFront (dropLanes w.front e.mask)) e.mask (fun i l => (g i l).l) r.lanes]; rfl

/-- Instructions on lanes that never trap. -/
theorem laneRule (i : Instr) (k : Kind) (body : Ctx → State → Warp → Eff) (src dst : List (VReg × Nat))
    (g : Warp → Nat → Lane → Lane) (he : ∀ s, exec i s = issue k body s)
    (hu : ∀ x ∈ k.u.regs, (x.r, x.n) ∈ src ++ dst ∧ (x.src = true → (x.r, x.n) ∈ src))
    (hb : ∀ c s w, body c s w = Eff.perLane c s w (fun L l => .ok (g w L l)))
    (hgf : ∀ w fr L l, g (Warp.setFront w fr) L l = g w L l) (hgt : ∀ w L l, (g w L l).tx = l.tx)
    (hbad : k.bad = false) (hfar : k.far = fun _ _ => (0, [])) (hp : k.plain = false) (hl : k.load = false) (hn : k.noHandler = false)
    (hv : k.u.var = false) : LaneRule i k.len src dst g := by
  intro s w e r ho
  have := issue_perLane i k body src dst he hu hbad hfar hp hl hn s w e r ho [] [] (pends_none k w e hv) (fun L l => .ok (g w L l))
    (by rw [hb]; simp only [hgf]) (fun L l => hgt w L l) (fun _ _ => rfl)
  exact this

/-- Instructions on lanes that raise flags. -/
theorem flagRule (i : Instr) (k : Kind) (body : Ctx → State → Warp → Eff) (src dst : List (VReg × Nat))
    (g : State → Warp → FEntry → Lane → Lane × FFlags) (he : ∀ s, exec i s = issue k body s)
    (hu : ∀ x ∈ k.u.regs, (x.r, x.n) ∈ src ++ dst ∧ (x.src = true → (x.r, x.n) ∈ src))
    (hb : ∀ s w e n d h, body ⟨e, e.pc, n, e.mask, d, h⟩ (State.listening (State.awake s)) (Warp.setFront w (dropLanes w.front e.mask)) =
      Eff.perLane ⟨e, e.pc, n, e.mask, d, h⟩ (State.listening (State.awake s)) (Warp.setFront w (dropLanes w.front e.mask))
        (fun _ l => flagged w.wmode l (g s w e l).1 (g s w e l).2))
    (hgt : ∀ s w e l, (g s w e l).1.tx = l.tx)
    (hbad : k.bad = false) (hfar : k.far = fun _ _ => (0, [])) (hp : k.plain = false) (hl : k.load = false) (hn : k.noHandler = false)
    (var : List (VReg × Nat) := [])
    (hv : ∀ s w e, Runs s w e → OperandsReady w e src dst → Pends w e var [] { w with pend := k.leaves w e } := by
      intro _ w e _ _; exact pends_none _ w e rfl) : FlagRule i k.len src dst g var := by
  intro s w e r ho hf
  have := issue_perLane i k body src dst he hu hbad hfar hp hl hn s w e r ho var [] (hv s w e r ho) (fun _ l => flagged w.wmode l (g s w e l).1 (g s w e l).2)
    (hb s w e _ _ _) (by
      intro _ l
      unfold flagged
      split
      · exact hgt s w e l
      · rfl) (by intro L hL; unfold flagged; rw [if_pos (hf L hL)]; rfl)
  obtain ⟨t, w', h1, h2, h3, h4, h5, h6⟩ := this
  refine ⟨t, w', h1, h2, h3, h4, h5, ?_⟩
  intro L
  rw [h6 L]
  split
  · rename_i hL; unfold flagged; rw [if_pos (hf L hL)]; rfl
  · rfl

/-- Instructions on scalar registers. -/
theorem scalarRule (i : Instr) (k : Kind) (body : Ctx → State → Warp → Eff) (src dst : List (VReg × Nat))
    (g : Warp → FEntry → List Word) (he : ∀ s, exec i s = issue k body s) (hlen : k.len = 4)
    (hu : ∀ x ∈ k.u.regs, (x.r, x.n) ∈ src ++ dst ∧ (x.src = true → (x.r, x.n) ∈ src))
    (hb : ∀ s w e n d h, Runs s w e → OperandsReady w e src dst →
      body ⟨e, e.pc, n, e.mask, d, h⟩ (State.listening (State.awake s)) (Warp.setFront w (dropLanes w.front e.mask)) =
      { s := State.listening (State.awake s),
        w := { Warp.setFront w (dropLanes w.front e.mask) with sregs := g w e } })
    (hbad : k.bad = false) (hfar : k.far = fun _ _ => (0, [])) (hp : k.plain = false) (hl : k.load = false) (hn : k.noHandler = false)
    (hv : k.u.var = false) : ScalarRule i src dst g := by
  intro s w e r ho
  have := issue_completes i k body he src dst hu hbad hfar hp hl hn s w e r ho [] [] (pends_none k w e hv) _ (hb s w e _ _ _ r ho) rfl rfl rfl
    rfl rfl rfl r.noTx rfl rfl rfl rfl rfl rfl rfl
  rw [hlen] at this
  obtain ⟨t, w', h1, h2, h3, h4, h5, h6⟩ := this
  refine ⟨t, w', h1, h2, h3, h4, h5, fun L => ?_⟩
  unfold Warp.lane; rw [h6]; rfl

end Sys2Proof.Machine
end

