-- ==== Sys2Proof/Laws/Memory.lean ====
section
/-! SUPPORT. Lists of cells: every write keeps the canonical form of memory, a byte written reads back, and every other byte
reads as it did. -/
namespace Sys2Proof.Machine

open Sys2Proof

/-- Strictly rising addresses, as a pairwise relation. -/
theorem cellsRise_iff (l : List Host.Cell) : cellsRise l = true ↔ l.Pairwise (fun x y => x.1 < y.1) := by
  induction l with
  | nil => simp [cellsRise]
  | cons x t ih =>
    obtain ⟨a, v⟩ := x
    cases t with
    | nil => simp [cellsRise]
    | cons y u =>
      obtain ⟨b, w⟩ := y
      rw [List.pairwise_cons, ← ih]
      simp only [cellsRise, Bool.and_eq_true, decide_eq_true_eq]
      refine ⟨fun h => ⟨?_, h.2⟩, fun h => ⟨h.1 (b, w) (by simp), h.2⟩⟩
      intro z hz
      rcases List.mem_cons.1 hz with rfl | hz
      · exact h.1
      · exact Nat.lt_trans h.1 (List.rel_of_pairwise_cons (ih.1 h.2) hz)

theorem mem_cellPut (l : List Host.Cell) (a : Nat) (b : Byte) (c : Host.Cell) (h : c ∈ cellPut l a b) : c = (a, b) ∨ c ∈ l := by
  induction l with
  | nil => simpa [cellPut] using h
  | cons x t ih =>
    obtain ⟨k, v⟩ := x
    simp only [cellPut] at h
    split at h
    · rcases List.mem_cons.1 h with h | h
      · exact .inr (by simp [h])
      · exact (ih h).imp_right (List.mem_cons_of_mem _)
    · split at h
      · rcases List.mem_cons.1 h with h | h
        · exact .inl h
        · exact .inr (List.mem_cons_of_mem _ h)
      · rcases List.mem_cons.1 h with h | h
        · exact .inl h
        · exact .inr h

theorem cellPut_rise (l : List Host.Cell) (a : Nat) (b : Byte) (h : cellsRise l = true) : cellsRise (cellPut l a b) = true := by
  rw [cellsRise_iff] at *
  induction l with
  | nil => simp [cellPut]
  | cons x t ih =>
    obtain ⟨k, v⟩ := x
    rw [List.pairwise_cons] at h
    simp only [cellPut]
    split
    · rename_i hk
      refine List.pairwise_cons.2 ⟨fun c hc => ?_, ih h.2⟩
      rcases mem_cellPut t a b c hc with rfl | hc
      · exact hk
      · exact h.1 c hc
    · split
      · rename_i hk
        subst hk
        exact List.pairwise_cons.2 ⟨h.1, h.2⟩
      · refine List.pairwise_cons.2 ⟨fun c hc => ?_, List.pairwise_cons.2 h⟩
        rcases List.mem_cons.1 hc with rfl | hc
        · simp only; omega
        · have := h.1 c hc
          simp only at this ⊢
          omega

theorem cellDel_rise (l : List Host.Cell) (a : Nat) (h : cellsRise l = true) : cellsRise (cellDel l a) = true := by
  rw [cellsRise_iff] at *
  exact h.filter _

@[simp] theorem cellGet_put (l : List Host.Cell) (a : Nat) (b : Byte) (q : Nat) :
    cellGet (cellPut l a b) q = if a = q then some b else cellGet l q := by
  induction l with
  | nil => simp [cellPut, cellGet]
  | cons x t ih =>
    obtain ⟨k, v⟩ := x
    simp only [cellPut]
    split
    · simp only [cellGet, ih]
      split <;> split <;> first | rfl | omega
    · split
      · rename_i hk
        subst hk
        simp only [cellGet]
        split <;> rfl
      · simp [cellGet]

@[simp] theorem cellGet_del (l : List Host.Cell) (a q : Nat) :
    cellGet (cellDel l a) q = if a = q then none else cellGet l q := by
  induction l with
  | nil => simp [cellDel, cellGet]
  | cons x t ih =>
    obtain ⟨k, v⟩ := x
    simp only [cellDel, List.filter_cons] at ih ⊢
    by_cases hk : k = a
    · subst hk
      simp only [bne_self_eq_false, Bool.false_eq_true, if_false, ih, cellGet]
      split <;> rfl
    · have : (k != a) = true := by simpa using hk
      simp only [this, if_true, cellGet, ih]
      split <;> split <;> first | rfl | omega

/-- A byte written reads back, and every other byte reads as before. -/
@[simp] theorem Memory.read_write (m : List Host.Cell) (a : Nat) (b : Byte) (q : Nat) :
    Memory.read (Memory.write m a b) q = if a = q then b else Memory.read m q := by
  unfold Memory.read Memory.write
  split
  · rename_i hb
    subst hb
    simp only [cellGet_del]
    split <;> rfl
  · simp only [cellGet_put]
    split <;> rfl

/-- A write of one byte keeps the canonical form. -/
theorem Memory.write_wf (m : List Host.Cell) (a : Nat) (b : Byte) (h : Memory.wf m = true) : Memory.wf (Memory.write m a b) = true := by
  simp only [Memory.wf, Bool.and_eq_true, List.all_eq_true] at *
  unfold Memory.write
  split
  · exact ⟨cellDel_rise m a h.1, fun c hc => h.2 c (List.mem_filter.1 hc).1⟩
  · rename_i hb
    refine ⟨cellPut_rise m a b h.1, fun c hc => ?_⟩
    rcases mem_cellPut m a b c hc with rfl | hc
    · simpa using hb
    · exact h.2 c hc

/-- A write of bytes keeps the canonical form. -/
theorem Memory.writes_wf (bs : List Byte) (m : List Host.Cell) (a : Nat) (h : Memory.wf m = true) : Memory.wf (Memory.writes m a bs) = true := by
  induction bs generalizing m a with
  | nil => exact h
  | cons b t ih => exact ih _ _ (Memory.write_wf m a b h)

/-- What every address reads as after a write of bytes. -/
theorem Memory.read_writes (bs : List Byte) (m : List Host.Cell) (a q : Nat) :
    Memory.read (Memory.writes m a bs) q = if a ≤ q ∧ q < a + bs.length then bs.getD (q - a) 0 else Memory.read m q := by
  induction bs generalizing m a with
  | nil => simp only [Memory.writes, List.length_nil]; rw [if_neg (by omega)]
  | cons b t ih =>
    simp only [Memory.writes, ih, Memory.read_write, List.length_cons]
    by_cases hq : a = q
    · subst hq
      rw [if_neg (by omega), if_pos rfl, if_pos (by omega)]
      simp
    · rw [if_neg hq]
      by_cases h : a ≤ q ∧ q < a + (t.length + 1)
      · rw [if_pos (by omega), if_pos h]
        have : q - a = (q - (a + 1)) + 1 := by omega
        rw [this, List.getD_cons_succ]
      · rw [if_neg (by omega), if_neg h]

@[simp] theorem toBytes_length (n v : Nat) : (toBytes n v).length = n := by
  induction n generalizing v with
  | zero => rfl
  | succ n ih => simp [toBytes, ih]

/-- The value of the bytes just written is the value written (R9). -/
theorem leNat_toBytes (n v : Nat) : leNat (toBytes n v) = v % 2 ^ (8 * n) := by
  induction n generalizing v with
  | zero => simp [toBytes, leNat, Nat.mod_one]
  | succ n ih =>
    have h : 2 ^ (8 * (n + 1)) = 256 * 2 ^ (8 * n) := by rw [show 8 * (n + 1) = 8 + 8 * n by ring, Nat.pow_add]
    simp only [toBytes, leNat, ih, BitVec.toNat_ofNat, h, Nat.mod_mul]

/-- Two memories in canonical form that read alike at every address are equal. -/
theorem Memory.ext (l m : List Host.Cell) (hl : Memory.wf l = true) (hm : Memory.wf m = true)
    (h : ∀ a, Memory.read l a = Memory.read m a) : l = m := by
  simp only [Memory.wf, Bool.and_eq_true, List.all_eq_true, cellsRise_iff] at hl hm
  have key : ∀ (l : List Host.Cell), l.Pairwise (fun x y => x.1 < y.1) → (∀ c ∈ l, (c.2 != Memory.unlisted) = true) →
      ∀ c : Host.Cell, c ∈ l ↔ Memory.read l c.1 = c.2 ∧ c.2 ≠ Memory.unlisted := by
    intro l
    induction l with
    | nil => intro _ _ c; simp [Memory.read, cellGet, eq_comm]
    | cons x t ih =>
      obtain ⟨k, v⟩ := x
      intro hp hz c
      obtain ⟨a, b⟩ := c
      rw [List.pairwise_cons] at hp
      have hv : v ≠ Memory.unlisted := by simpa using hz (k, v) (by simp)
      have it := ih hp.2 (fun c hc => hz c (List.mem_cons_of_mem _ hc)) (a, b)
      simp only [Memory.read, cellGet] at it ⊢
      by_cases hk : k = a
      · subst hk
        simp only [if_true, Option.getD_some, List.mem_cons, Prod.mk.injEq, true_and]
        constructor
        · rintro (rfl | hc)
          · exact ⟨rfl, hv⟩
          · exact absurd (hp.1 _ hc) (by simp)
        · rintro ⟨rfl, -⟩
          exact .inl rfl
      · rw [if_neg hk, ← it, List.mem_cons]
        simp [Ne.symm hk]
  have hmem : ∀ c, c ∈ l ↔ c ∈ m := by
    intro c
    rw [key l hl.1 hl.2, key m hm.1 hm.2, h]
  exact List.Perm.eq_of_pairwise (le := fun x y => x.1 < y.1) (fun a b _ _ h1 h2 => absurd h1 (Nat.lt_asymm h2)) hl.1 hm.1
    ((List.perm_ext_iff_of_nodup (hl.1.imp fun {a b} h e => by simp [e] at h) (hm.1.imp fun {a b} h e => by simp [e] at h)).2 hmem)

end Sys2Proof.Machine
end

