-- ==== Sys2Proof/Laws/Shapes.lean ====
section
/-! SUPPORT. What each shared shape of the register instructions does. -/
namespace Sys2Proof.Machine

open Sys2Proof

/-! ## Writes of a lane leave its transaction alone -/

@[simp] theorem Lane.setReg_tx (l : Lane) (k : Nat) (v : Word) : (l.setReg k v).tx = l.tx := rfl

theorem Lane.foldl_setReg (zs : List (Word × Nat)) (k : Nat) (l : Lane) :
    (zs.foldl (fun a vi => a.setReg (k + vi.2) vi.1) l).tx = l.tx := by
  induction zs generalizing l with
  | nil => rfl
  | cons x t ih => rw [List.foldl_cons, ih]; rfl

@[simp] theorem Lane.wr_tx (l : Lane) (n : Nat) (r : VReg) (vs : List Word) : (l.wr n r vs).tx = l.tx := by
  unfold Lane.wr
  split
  · exact Lane.foldl_setReg _ _ _
  · rfl

@[simp] theorem Lane.setV_tx (l : Lane) (n : Nat) (r : VReg) (v : Word) : (l.setV n r v).tx = l.tx := Lane.wr_tx _ _ _ _

@[simp] theorem Lane.setVP_tx (l : Lane) (n : Nat) (r : VReg) (v : DWord) : (l.setVP n r v).tx = l.tx := Lane.wr_tx _ _ _ _

@[simp] theorem Lane.setPred_tx (l : Lane) (p : PReg) (v : Bool) : (l.setPred p v).tx = l.tx := by
  unfold Lane.setPred; split <;> rfl

@[simp] theorem Lane.orFlags_tx (l : Lane) (f : FFlags) : (l.orFlags f).tx = l.tx := rfl

/-! ## Shapes -/

theorem lane3_rule (i : Instr) (b : Bool) (d a c : VReg) (f : Word → Word → Word) (he : ∀ s, exec i s = lane3 b d a c f s) :
    LaneRule i 4 [(a, 1), (c, 1)] [(d, 1)] (fun w _ l => l.setV w.alloc d (f (l.v w.alloc a) (l.v w.alloc c))) :=
  laneRule i _ _ _ _ _ he (by simp [useDAC, useDA]) (fun _ _ _ => rfl) (fun _ _ _ _ => rfl) (fun _ _ _ => Lane.setV_tx _ _ _ _)
    rfl rfl rfl rfl rfl rfl

theorem lane2_rule (i : Instr) (b : Bool) (d a : VReg) (f : Word → Word) (he : ∀ s, exec i s = lane2 b d a f s) :
    LaneRule i 4 [(a, 1)] [(d, 1)] (fun w _ l => l.setV w.alloc d (f (l.v w.alloc a))) :=
  laneRule i _ _ _ _ _ he (by simp [useDA]) (fun _ _ _ => rfl) (fun _ _ _ _ => rfl) (fun _ _ _ => Lane.setV_tx _ _ _ _) rfl rfl
    rfl rfl rfl rfl

theorem lane4_rule (i : Instr) (b : Bool) (d a c : VReg) (f : Word → Word → Word → Word)
    (he : ∀ s, exec i s = lane4 b d a c f s) :
    LaneRule i 4 [(d, 1), (a, 1), (c, 1)] [] (fun w _ l =>
      l.setV w.alloc d (f (l.v w.alloc d) (l.v w.alloc a) (l.v w.alloc c))) :=
  laneRule i _ _ _ _ _ he (by simp [useDDAC]) (fun _ _ _ => rfl) (fun _ _ _ _ => rfl) (fun _ _ _ => Lane.setV_tx _ _ _ _) rfl rfl
    rfl rfl rfl rfl

theorem lane3P_rule (i : Instr) (b : Bool) (d a c : VReg) (cy : Nat × Nat × Nat) (f : DWord → DWord → DWord)
    (he : ∀ s, exec i s = lane3P b d a c cy f s) :
    LaneRule i 4 [(a, 2), (c, 2)] [(d, 2)] (fun w _ l => l.setVP w.alloc d (f (l.vp w.alloc a) (l.vp w.alloc c))) :=
  laneRule i _ _ _ _ _ he (by simp [useDAC, useDA]) (fun _ _ _ => rfl) (fun _ _ _ _ => rfl) (fun _ _ _ => Lane.setVP_tx _ _ _ _)
    rfl rfl rfl rfl rfl rfl

theorem lanePred_rule (i : Instr) (b : Bool) (d : PReg) (a c : VReg) (f : Word → Word → Bool)
    (he : ∀ s, exec i s = lanePred b d a c f s) :
    LaneRule i 4 [(a, 1), (c, 1)] [] (fun w _ l => l.setPred d (f (l.v w.alloc a) (l.v w.alloc c))) :=
  laneRule i _ _ _ _ _ he (by simp) (fun _ _ _ => rfl) (fun _ _ _ _ => rfl) (fun _ _ _ => Lane.setPred_tx _ _ _) rfl rfl rfl rfl rfl rfl

theorem lanePredP_rule (i : Instr) (b : Bool) (d : PReg) (a c : VReg) (f : DWord → DWord → Bool)
    (he : ∀ s, exec i s = lanePredP b d a c f s) :
    LaneRule i 4 [(a, 2), (c, 2)] [] (fun w _ l => l.setPred d (f (l.vp w.alloc a) (l.vp w.alloc c))) :=
  laneRule i _ _ _ _ _ he (by simp) (fun _ _ _ => rfl) (fun _ _ _ _ => rfl) (fun _ _ _ => Lane.setPred_tx _ _ _) rfl rfl rfl rfl rfl rfl

theorem scalarPred_rule (i : Instr) (b : Bool) (d : PReg) (a c : SReg) (f : Word → Word → Bool)
    (he : ∀ s, exec i s = scalarPred b d a c f s) :
    LaneRule i 4 [] [] (fun w _ l => l.setPred d (f (w.sv a.val) (w.sv c.val))) :=
  laneRule i _ _ _ _ _ he (by simp) (fun _ _ _ => rfl) (fun _ _ _ _ => rfl) (fun _ _ _ => Lane.setPred_tx _ _ _) rfl rfl rfl rfl rfl rfl

theorem scalar3_rule (i : Instr) (b : Bool) (d a c : SReg) (f : Word → Word → Word) (he : ∀ s, exec i s = scalar3 b d a c f s) :
    ScalarRule i [] [] (fun w _ => w.sregs.set d.val (f (w.sv a.val) (w.sv c.val))) :=
  scalarRule i _ _ _ _ _ he rfl (by simp) (fun _ _ _ _ _ _ _ _ => rfl) rfl rfl rfl rfl rfl rfl

theorem half2_rule (i : Instr) (b : Bool) (d c : LReg) (f : Word → Word → Word) (he : ∀ s, exec i s = half2 b d c f s) :
    LaneRule i 2 [(hreg d, 1), (hreg c, 1)] [] (fun w _ l =>
      l.setV w.alloc (hreg d) (f (l.v w.alloc (hreg d)) (l.v w.alloc (hreg c)))) :=
  laneRule i _ _ _ _ _ he (by simp [useDDAC]) (fun _ _ _ => rfl) (fun _ _ _ _ => rfl) (fun _ _ _ => Lane.setV_tx _ _ _ _) rfl rfl
    rfl rfl rfl rfl

theorem f32Op2_rule (i : Instr) (b : Bool) (d a c : VReg) (op : Bool → Bool → Nat → Nat → Enc)
    (he : ∀ s, exec i s = f32Op2 b d a c op s) :
    FlagRule i 4 [(a, 1), (c, 1)] [(d, 1)] (fun _ w _ l =>
      let r := op (wmDaz w.wmode) (wmFtz w.wmode) (l.v w.alloc a).toNat (l.v w.alloc c).toNat
      (l.setV w.alloc d (BitVec.ofNat 32 r.1), r.2)) :=
  flagRule i _ _ _ _ _ he (by simp [useDAC, useDA]) (fun _ _ _ _ _ _ => rfl) (fun _ _ _ _ => Lane.setV_tx _ _ _ _) rfl rfl rfl rfl rfl

theorem f32Op1_rule (i : Instr) (b : Bool) (d a : VReg) (op : Bool → Bool → Nat → Enc) (he : ∀ s, exec i s = f32Op1 b d a op s) :
    FlagRule i 4 [(a, 1)] [(d, 1)] (fun _ w _ l =>
      let r := op (wmDaz w.wmode) (wmFtz w.wmode) (l.v w.alloc a).toNat
      (l.setV w.alloc d (BitVec.ofNat 32 r.1), r.2)) :=
  flagRule i _ _ _ _ _ he (by simp [useDA]) (fun _ _ _ _ _ _ => rfl) (fun _ _ _ _ => Lane.setV_tx _ _ _ _) rfl rfl rfl rfl rfl

theorem f32Op3_rule (i : Instr) (b : Bool) (d a c : VReg) (op : Bool → Bool → Word → Word → Word → Enc)
    (he : ∀ s, exec i s = f32Op3 b d a c op s) :
    FlagRule i 4 [(d, 1), (a, 1), (c, 1)] [] (fun _ w _ l =>
      let r := op (wmDaz w.wmode) (wmFtz w.wmode) (l.v w.alloc a) (l.v w.alloc c) (l.v w.alloc d)
      (l.setV w.alloc d (BitVec.ofNat 32 r.1), r.2)) :=
  flagRule i _ _ _ _ _ he (by simp [useDDAC]) (fun _ _ _ _ _ _ => rfl) (fun _ _ _ _ => Lane.setV_tx _ _ _ _) rfl rfl rfl rfl rfl

theorem f64Op2_rule (i : Instr) (b : Bool) (d a c : VReg) (op : Bool → Bool → Nat → Nat → Enc)
    (he : ∀ s, exec i s = f64Op2 b d a c op s) :
    FlagRule i 4 [(a, 2), (c, 2)] [(d, 2)] (fun _ w _ l =>
      let r := op (wmDaz w.wmode) (wmFtz w.wmode) (l.vp w.alloc a).toNat (l.vp w.alloc c).toNat
      (l.setVP w.alloc d (BitVec.ofNat 64 r.1), r.2)) :=
  flagRule i _ _ _ _ _ he (by simp [useDAC, useDA]) (fun _ _ _ _ _ _ => rfl) (fun _ _ _ _ => Lane.setVP_tx _ _ _ _) rfl rfl rfl rfl rfl

theorem f64Op1_rule (i : Instr) (b : Bool) (d a : VReg) (op : Bool → Bool → Nat → Enc) (he : ∀ s, exec i s = f64Op1 b d a op s) :
    FlagRule i 4 [(a, 2)] [(d, 2)] (fun _ w _ l =>
      let r := op (wmDaz w.wmode) (wmFtz w.wmode) (l.vp w.alloc a).toNat
      (l.setVP w.alloc d (BitVec.ofNat 64 r.1), r.2)) :=
  flagRule i _ _ _ _ _ he (by simp [useDA]) (fun _ _ _ _ _ _ => rfl) (fun _ _ _ _ => Lane.setVP_tx _ _ _ _) rfl rfl rfl rfl rfl

theorem sfuOp_rule (i : Instr) (b : Bool) (d a : VReg) (f : SfuFn) (he : ∀ s, exec i s = sfuOp b d a f s) :
    FlagRule i 4 [(a, 1)] [(d, 1)] (fun _ w _ l =>
      let r := sfuValue f (wmDaz w.wmode) (wmFtz w.wmode) (l.v w.alloc a).toNat
      (l.setV w.alloc d (BitVec.ofNat 32 r.1), r.2)) [(d, 1)] :=
  flagRule i _ _ _ _ _ he (by simp [useDA]) (fun _ _ _ _ _ _ => rfl) (fun _ _ _ _ => Lane.setV_tx _ _ _ _) rfl rfl rfl rfl rfl [(d, 1)]
    (fun s w e r ho => pends_var _ s w e [(a, 1)] [(d, 1)] r.toIssues ho (by simp [useDA]) rfl)

end Sys2Proof.Machine
end

