-- ==== Sys2Proof/Laws/Shared.lean ====
section
/-! SUPPORT. What the shared operations of coherence leave as it was: taking a line from warps and holders changes no byte of
memory; publishing a posted store and a write at the home keep the form of the state. -/
namespace Sys2Proof.Machine

open Sys2Proof

/-- The second state has the memory of the first and its numbers of cores, dies and queues. -/
structure State.Alike (s t : State) : Prop where
  mem : t.mem = s.mem
  cores : t.cores.length = s.cores.length
  dies : t.dies.length = s.dies.length
  queues : t.lu.queues.length = s.lu.queues.length

theorem State.Alike.rfl' (s : State) : s.Alike s := ⟨rfl, rfl, rfl, rfl⟩

theorem State.Alike.trans {s t u : State} (h : s.Alike t) (g : t.Alike u) : s.Alike u :=
  ⟨g.mem.trans h.mem, g.cores.trans h.cores, g.dies.trans h.dies, g.queues.trans h.queues⟩

theorem State.Alike.inv {s t : State} (h : s.Alike t) (hi : s.Inv) : t.Inv := by
  obtain ⟨h1, h2, h3, h4⟩ := hi
  exact ⟨by rw [h.mem, h1], by rw [h.cores, h2], by rw [h.dies, h3], by rw [h.queues, h4]⟩

theorem State.Alike.foldl {α : Type} (l : List α) (f : State → α → State) (hf : ∀ (s : State) (a : α), s.Alike (f s a)) (s : State) :
    s.Alike (l.foldl f s) := by
  induction l generalizing s with
  | nil => exact .rfl' s
  | cons a t ih => exact (hf s a).trans (ih _)

theorem State.ite_alike {s t u : State} (p : Prop) [Decidable p] (ht : s.Alike t) (hu : s.Alike u) : s.Alike (if p then t else u) := by
  split
  · exact ht
  · exact hu

theorem State.inv_foldl {α : Type} (l : List α) (f : State → α → State) (hf : ∀ (s : State) (a : α), s.Inv → (f s a).Inv) (s : State) (h : s.Inv) :
    (l.foldl f s).Inv := by
  induction l generalizing s with
  | nil => exact h
  | cons a t ih => exact ih _ (hf s a h)

/-! ## Updates of one part -/

theorem State.modCore_alike (s : State) (d k : Nat) (f : Core → Core) : s.Alike (s.modCore d k f) := ⟨rfl, by simp [modCore], rfl, rfl⟩

theorem State.modDie_alike (s : State) (d : Nat) (f : Die → Die) : s.Alike (s.modDie d f) := ⟨rfl, rfl, by simp [modDie], rfl⟩

theorem State.modWarp_alike (s : State) (u : Nat) (f : Warp → Warp) : s.Alike (s.modWarp u f) := ⟨rfl, rfl, rfl, rfl⟩

theorem State.modGrid_alike (s : State) (k : Nat) (f : Grid → Grid) : s.Alike (s.modGrid k f) := ⟨rfl, rfl, rfl, rfl⟩

theorem State.modTeam_alike (s : State) (g i : Nat) (f : Team → Team) : s.Alike (s.modTeam g i f) := ⟨rfl, rfl, rfl, rfl⟩

theorem State.count_alike (s : State) (d k i n : Nat) : s.Alike (s.count d k i n) := modCore_alike _ _ _ _

theorem State.modLine_alike (s : State) (l : Nat) (f : LineRec → LineRec) : s.Alike (s.modLine l f) := by
  unfold modLine
  split <;> exact ⟨rfl, rfl, rfl, rfl⟩

theorem State.modSlice_alike (s : State) (d i : Nat) (f : Slice → Slice) : s.Alike (s.modSlice d i f) := modDie_alike _ _ _

theorem State.modDieCores_alike (s : State) (d : Nat) (f : Nat → Core → Core) : s.Alike (s.modDieCores d f) :=
  ⟨rfl, by simp [modDieCores], rfl, rfl⟩

theorem State.leaveSlot_alike (s : State) (w : Warp) : s.Alike (s.leaveSlot w) := ⟨rfl, by simp [leaveSlot, modCore], rfl, rfl⟩

theorem State.unslot_alike (s : State) (u : Nat) : s.Alike (s.unslot u) := by
  unfold unslot
  split
  · split
    · exact leaveSlot_alike _ _
    · exact ⟨rfl, by simp, rfl, rfl⟩
  · exact ⟨rfl, by simp, rfl, rfl⟩

theorem State.releaseTx_alike (s : State) (u L : Nat) : s.Alike (s.releaseTx u L) := ⟨rfl, rfl, rfl, rfl⟩

/-! ## Lines taken from warps (R339, R224) -/

theorem State.rollbackWarp_alike (s : State) (u : Nat) : s.Alike (s.rollbackWarp u) := by
  unfold rollbackWarp
  split
  · exact .rfl' s
  · rename_i w _
    split
    · exact .rfl' s
    · rename_i win _
      have h : s.Alike ((((((s.unslot u).modWarp u (fun x =>
          { x.rolledBack win with failing := x.failing || win.log.any (·.bad) })).dropPending w win).count w.die w.core 3 1).count
          w.die w.core 4 (win.seq - win.save.seq))) :=
        .trans (.trans (.trans (.trans (unslot_alike s u) (modWarp_alike _ _ _)) (modCore_alike _ _ _ _)) (count_alike _ _ _ _ _))
          (count_alike _ _ _ _ _)
      refine .trans (.trans h ?_) (.trans (count_alike _ _ _ _ _) (count_alike _ _ _ _ _))
      split
      · exact count_alike _ _ _ _ _
      · exact .rfl' _

theorem State.abortTx_alike (s : State) (u L cause : Nat) : s.Alike (s.abortTx u L cause) := by
  unfold abortTx
  split
  · exact .rfl' s
  · exact .trans (.trans (modWarp_alike _ _ _) (releaseTx_alike _ _ _)) (count_alike _ _ _ _ _)

theorem State.snoopWarp_alike (s : State) (line : Nat) (rc : Bool) (self : Option Nat) (u : Nat) :
    s.Alike (s.snoopWarp line rc self u) := by
  unfold snoopWarp
  split
  · exact .rfl' s
  · refine .trans ?_ (.foldl _ _ (fun a L => abortTx_alike a u L cConflict) _)
    exact ite_alike _ (rollbackWarp_alike s u) (.rfl' s)

theorem State.snoopIf_alike (s : State) (pick : Warp → Bool) (line : Nat) (writer : Option (Nat × Nat)) (rc : Bool) :
    s.Alike (s.snoopIf pick line writer rc) := by
  unfold snoopIf
  split
  · exact .foldl _ _ (fun a u => snoopWarp_alike a line rc _ u) _
  · refine State.Alike.trans ?_ (Alike.foldl _ (fun a u => a.snoopWarp line rc _ u) (fun a u => snoopWarp_alike a line rc _ u) _)
    exact ite_alike _ ⟨rfl, rfl, rfl, rfl⟩ (.rfl' s)

/-- Taking a line from the warps changes no byte of memory. -/
theorem State.snoop_alike (s : State) (line : Nat) (writer : Option (Nat × Nat)) (rc : Bool) : s.Alike (s.snoop line writer rc) :=
  snoopIf_alike s _ line writer rc

/-! ## Lines taken from holders (R387, R388, R404, R408) -/

theorem State.dropL1_alike (s : State) (d line : Nat) (keep : Option Nat) : s.Alike (s.dropL1 d line keep) := by
  unfold dropL1
  split
  · exact .rfl' s
  · split
    · exact .trans (modDieCores_alike _ _ _) (modLine_alike _ _ _)
    · exact .trans (modDieCores_alike s d _) (ite_alike _ (.trans (modCore_alike _ _ _ _) (modLine_alike _ _ _)) (modLine_alike _ _ _))

theorem State.leaveCopy_alike (s : State) (h line : Nat) : s.Alike (s.leaveCopy h line) :=
  .trans (dropL1_alike _ _ _ _) (modLine_alike _ _ _)

theorem State.invalidate_alike (s : State) (h line : Nat) : s.Alike (s.invalidate h line) :=
  .trans (leaveCopy_alike _ _ _) (modLine_alike _ _ _)

/-- An eviction from an L2 changes no byte of memory: memory holds the data of every copy (R388). -/
theorem State.evictL2_alike (s : State) (d line : Nat) : s.Alike (s.evictL2 d line) := by
  have h1 : s.Alike (s.snoopDie d line) := snoopIf_alike _ _ _ _ _
  unfold evictL2
  dsimp only
  split
  · have h2 := h1.trans (leaveCopy_alike (s.snoopDie d line) d line)
    split
    · exact h2
    · split
      · exact h2
      · exact h2.trans (modLine_alike _ _ _)
  · split
    · exact h1.trans (leaveCopy_alike _ _ _)
    · exact h1.trans (invalidate_alike _ _ _)

theorem State.l2Make_alike (s : State) (d line : Nat) : s.Alike (s.l2Make d line) := by
  unfold l2Make
  split
  · exact evictL2_alike _ _ _
  · exact .rfl' s

theorem State.displace_alike (s : State) (line : Nat) : s.Alike (s.displace line) :=
  .trans (.foldl _ _ (fun a h => invalidate_alike a h line) _) (snoop_alike _ _ _ _)

/-- The count of uses is no part of memory. -/
theorem State.usesUp_alike (s : State) (n : Nat) : s.Alike { s with uses := n } := ⟨rfl, rfl, rfl, rfl⟩

theorem State.usedBy_alike (s : State) (h line : Nat) : s.Alike (s.usedBy h line) := .trans (usesUp_alike _ _) (modLine_alike _ _ _)

theorem State.filterEnter_alike (s : State) (h line : Nat) : s.Alike (s.filterEnter h line) := by
  unfold filterEnter
  have h : s.Alike (match s.filterRoom line with | .evict v => s.displace v | _ => s) := by
    split
    · exact displace_alike _ _
    · exact .rfl' s
  exact .trans h (.trans (usesUp_alike _ _) (modLine_alike _ _ _))

/-- A read copy changes no byte of memory (R411). -/
theorem State.fabRead_alike (s : State) (h line : Nat) : s.Alike (s.fabRead h line) := by
  unfold fabRead
  dsimp only
  split
  · exact usedBy_alike _ _ _
  · have h1 : s.Alike (if h < 4 then s.l2Make h line else s) := ite_alike _ (l2Make_alike _ _ _) (.rfl' s)
    have h2 := fun f => (h1.trans (modLine_alike _ line f)).trans (usedBy_alike _ h line)
    exact ite_alike _ (h2 _) ((h2 _).trans (filterEnter_alike _ _ _))

theorem State.fillL1_alike (s : State) (d k line : Nat) : s.Alike (s.fillL1 d k line) := by
  unfold fillL1
  dsimp only
  split
  · exact modCore_alike _ _ _ _
  · split
    · exact .rfl' s
    · refine .trans ?_ (modLine_alike _ _ _)
      split
      · exact modCore_alike _ _ _ _
      · exact .trans (modCore_alike _ _ _ _) (modDieCores_alike _ _ _)

/-- A read through the caches of a core changes no byte of memory (R383). -/
theorem State.touchLine_alike (s : State) (d k line : Nat) : s.Alike (s.touchLine d k line) :=
  .trans (fabRead_alike _ _ _) (fillL1_alike _ _ _ _)

theorem State.fabWrite_alike (s : State) (line die : Nat) (core : Option Nat) (plain : Bool) :
    s.Alike (s.fabWrite line die core plain) := by
  refine Alike.trans (Alike.trans (l2Make_alike s (s.homeDie (line * 128)) line) (Alike.foldl _ _ (fun a d => ?_) _)) (.trans (modLine_alike _ _ _) (usedBy_alike _ _ _))
  split
  · exact dropL1_alike _ _ _ _
  · exact leaveCopy_alike _ _ _

/-! ## What waits at the home (R410, R414, R418, R422) -/

theorem State.joinQueue_alike (s : State) (line : Nat) (q : HomeReq) : s.Alike (s.joinQueue line q) := by
  unfold joinQueue
  dsimp only
  split
  · exact .rfl' s
  · split
    · exact modLine_alike _ _ _
    · exact modSlice_alike _ _ _ _

theorem State.urge_alike (s : State) (pa n : Nat) (write : Bool) : s.Alike (s.urge pa n write) := by
  unfold urge
  dsimp only
  split
  · exact .rfl' s
  · exact modLine_alike _ _ _

theorem State.urgePosted_alike (s : State) (pick : Posted → Bool) : s.Alike (s.urgePosted pick) :=
  .foldl _ _ (fun _ _ => urge_alike _ _ _ _) _

theorem State.urgeRoom_alike (s : State) (line : Nat) : s.Alike (s.urgeRoom line) := by
  unfold urgeRoom urgeFor
  split
  · exact urge_alike _ _ _ _
  · exact .rfl' s

/-- Waiting for a line changes no byte of memory. -/
theorem State.awaitLine_alike (s : State) (u L pa n : Nat) (write : Bool) : s.Alike (s.awaitLine u L pa n write) :=
  .trans (joinQueue_alike _ _ _) (.trans (urge_alike _ _ _ _) (.trans (urgePosted_alike _ _) (urgeRoom_alike _ _)))

/-! ## Stores that take their place (R283, R405) -/

/-- A state whose memory is another's with bytes written has its form. -/
theorem State.inv_writes {s t : State} (a : Nat) (bs : List Byte) (hi : s.Inv) (hm : t.mem = Memory.writes s.mem a bs)
    (hc : t.cores.length = s.cores.length) (hd : t.dies.length = s.dies.length) (hq : t.lu.queues.length = s.lu.queues.length) :
    t.Inv := by
  obtain ⟨h1, h2, h3, h4⟩ := hi
  exact ⟨by rw [hm]; exact Memory.writes_wf bs _ a h1, by rw [hc, h2], by rw [hd, h3], by rw [hq, h4]⟩

/-- A posted store that reaches its package point changes memory at its bytes only. -/
theorem State.publishOne_mem (s : State) (p : Posted) : (s.publishOne p).mem = Memory.writes s.mem p.pa p.bytes :=
  (State.Alike.trans (fabWrite_alike _ _ _ _ _) (snoop_alike _ _ _ _)).mem

theorem State.publishOne_inv (s : State) (p : Posted) (h : s.Inv) : (s.publishOne p).Inv :=
  (State.Alike.trans (fabWrite_alike _ _ _ _ _) (snoop_alike _ _ _ _)).inv (inv_writes p.pa p.bytes h rfl rfl rfl rfl)

theorem State.publish_inv (s : State) (pick : Posted → Bool) (h : s.Inv) : (s.publish pick).Inv :=
  inv_foldl _ _ publishOne_inv s h

theorem State.unwatch_alike (s : State) (pick : Warp → Nat → Bool) (line : Nat) : s.Alike (s.unwatch pick line) :=
  .foldl _ _ (fun _ _ => rollbackWarp_alike _ _) _

theorem State.publishTo_inv (s : State) (scope : Nat) (pick : Posted → Bool) (h : s.Inv) : (s.publishTo scope pick).Inv := by
  unfold publishTo
  split
  · exact publish_inv s pick h
  · exact inv_foldl _ _ (fun a _ hi => (unwatch_alike a _ _).inv hi) _ h

/-- A write at the home changes memory at its bytes, once the posted stores that go before it have taken their place. -/
theorem State.homeWrite_mem (s : State) (a : Agent) (die : Nat) (core : Option Nat) (plain : Bool) (pa : Nat) (bs : List Byte) :
    (s.homeWrite a die core plain pa bs).mem =
      Memory.writes (s.publish (fun p => overlaps p.pa p.bytes.length pa bs.length && s.sees p a)).mem pa bs :=
  (State.Alike.trans (fabWrite_alike _ _ _ _ _) (snoop_alike _ _ _ _)).mem

/-- With no posted store waiting, a write at the home changes its bytes and no others. -/
theorem State.homeWrite_mem_calm (s : State) (a : Agent) (die : Nat) (core : Option Nat) (plain : Bool) (pa : Nat) (bs : List Byte)
    (h : s.posted = []) : (s.homeWrite a die core plain pa bs).mem = Memory.writes s.mem pa bs := by
  rw [homeWrite_mem]
  simp [publish, pubClosure, h]

theorem State.homeWrite_inv (s : State) (a : Agent) (die : Nat) (core : Option Nat) (plain : Bool) (pa : Nat) (bs : List Byte)
    (h : s.Inv) : (s.homeWrite a die core plain pa bs).Inv :=
  (State.Alike.trans (fabWrite_alike _ _ _ _ _) (snoop_alike _ _ _ _)).inv
    (inv_writes pa bs (publish_inv s (fun p => overlaps p.pa p.bytes.length pa bs.length && s.sees p a) h) rfl rfl rfl rfl)

theorem State.arrayWrite_alike (s : State) (u : Option (Nat × Nat)) (d k off : Nat) (bs : List Byte) :
    s.Alike (s.arrayWrite u d k off bs) :=
  .trans (modCore_alike _ _ _ _) (snoop_alike _ _ _ _)

/-- A read that forces publication (R287) keeps the form. -/
theorem State.forced_inv (s : State) (line : Nat) (a : Agent) (h : s.Inv) : (s.forced line a).Inv := by
  unfold forced
  split
  · exact h
  · exact (Alike.trans (modLine_alike _ _ _) (.foldl _ _ (fun _ _ => count_alike _ _ _ _ _) _)).inv (publish_inv s _ h)

/-- A read of a line without narrow-scope records forces nothing (R287). -/
theorem State.forced_none (s : State) (line : Nat) (a : Agent) (h : (s.line line).narrow = []) : s.forced line a = s := by
  simp [forced, outside, h]

end Sys2Proof.Machine
end

