-- ==== Sys2Proof/Tests/Slice0.lean ====
section
/-! SUPPORT. The model's own tests: every row's word as the spec's encoding gives it, an ill-formed term for each check, a state that
meets the hypotheses of each statement, and single steps whose results the spec prints. -/
namespace Sys2Proof.Tests

open Sys2Proof Sys2Proof.Machine

set_option Elab.async false

theorem test_first_step_runs :
    (match step (State.reset.withFetchWord 32 0x000280A5) with | .next _ => true | _ => false) = true := by decide +kernel

/-- Each word decodes to its instruction, which is encoded in that word. -/
noncomputable def reads (l : List (Nat × Instr)) : Bool :=
  l.all (fun x => decodeTableWord 32 x.1 == some x.2 && encodeBytes x.2 == some (leBytes x.1 4))

noncomputable def reads16 (l : List (Nat × Instr)) : Bool :=
  l.all (fun x => decodeTableWord 16 x.1 == some x.2 && encodeBytes x.2 == some (leBytes x.1 2))

/-! ## Words -/

/-- Words printed in the spec, and others it prints for the same families. -/
theorem test_spec_words : reads [
    (0x18201019, .addc (.v 16) (.v 8) (.v 12) false), (0x1A241119, .addc (.v 17) (.v 9) (.v 13) false),
    (0x0C14046D, .ffma (.v 4) (.v 5) (.v 6) false), (0x0C108891, .rngQ1 (.v 8) (.v 4) (.v 6) false),
    (0xFFF0189D, .br 0xFFF0 false 1 4 false false), (0x0006189D, .br 6 false 1 4 false false), (0x0002769D, .br 2 false 7 3 false false),
    (0xFFFC989D, .br 0xFFFC true 1 4 false false), (0x001800A5, .jmpi (.v 6) false), (0x001880A5, .calli (.v 6) false),
    (0x000100A5, .ret false), (0x060180A5, .prio 3 false), (0x000280A5, .nop false), (0xFA1183B1, .ldgB16I (.v 3) (.v 4) 0x7D false),
    (0x101802D1, .atomAddI64 (.v 2) (.v 6) (.v 8) false), (0x141882D5, .cas64 (.v 2) (.v 6) (.v 10) false),
    (0x101006D7, .cas32 (.v 6) (.v 4) (.v 8) true)] = true := by decide +kernel

theorem test_spec_words_system : reads [
    (0x001002DD, .barrAddI64 (.v 2) (.v 4) false), (0x001382DD, .barrOrB32 (.v 2) (.v 4) false), (0x000000D9, .bar false),
    (0x000000E1, .fenceC false), (0x000200E1, .fenceX false), (0x000000E5, .txb false), (0x000080E5, .txe false), (0x000181E5, .txs 1 false),
    (0x001000ED, .twait 4 false), (0x007000EF, .twait 28 true), (0x001080ED, .twany 4 false), (0x001102ED, .tfirst 2 4 false),
    (0x001180ED, .tclr 4 false), (0x002080E9, .bcpG2ax 8 0 false), (0x000000F3, .mmodeC true), (0x000080F1, .mmodeS false), (0x000100F1, .mcal false),
    (0x284000F5, .mmulEx false 16 20 false), (0x002000F9, .mzero 8 false), (0x000884F9, .mrd (.v 4) 2 false), (0x000904F9, .mwr (.v 4) 2 false),
    (0x006183F9, .mdrain 24 3 false), (0x004203F9, .mdrainAddF32 16 3 false), (0x0A0000FD, .trap 5 false), (0x000080FD, .brk 0 false),
    (0x000100FD, .eret false), (0x040284FD, .srds 4 .warp false)] = true := by decide +kernel

/-- Each check refuses a term: odd pairs in D, A and C, quads, scalar pairs and groups, a conversion's selector and widths, the reserved
branch condition, SRD, SRDS and SWR. -/
theorem test_ill_formed : ([.add64 (.v 1) (.v 2) (.v 4) true, .add64 (.v 2) (.v 3) (.v 4) true, .add64 (.v 2) (.v 4) (.v 5) true,
    .rngQ0 (.v 2) (.v 4) (.v 6) true, .cas128 (.v 4) (.v 2) (.v 6) true, .ldgB128 (.v 6) (.v 2) 0 true, .ldgB32 (.v 2) (.v 5) 0 true,
    .stgB64 (.v 3) (.v 4) 0 true, .ldpB128 (.v 2) (.v 3) 0 true, .voteBallot 3 0 true, .twait 5 true, .bcpG2a 6 0 true, .mmulEx false 4 6 true,
    .tstat 1 0 true, .cvt .rne (.v 2) (.v 3) 0x7F true, .cvt .rne (.v 2) (.v 3) 0x00 true, .br 0 true 7 0 false true,
    .srd (.v 1) .gtid true, .srds 1 .clock true, .srds 2 .lane true, .swr (.tscratch 3) true, .swr (.readOnly .lane 0) true] : List Instr).all
    (fun i => !i.wellFormed) = true := by decide +kernel

/-- Words that do not decode: an unassigned function, an odd pair, a pair for a quad, an odd scalar pair, an unlisted selector, the
reserved branch condition, an odd destination of a 64-bit special register, a reserved field that is not zero, the halfword of zeros. -/
theorem test_rejected_words : ([0x00038005, 0x08080115, 0x0C100291, 0x001400ED, 0xFE0C0281, 0x0000F09D, 0x0A0181FD, 0x000680A5] : List Nat).all
    (fun w => (decodeTableWord 32 w).isNone) = true ∧ decodeTableWord 16 0 = none := by decide +kernel

/-- One word for every row of the opcode table, with the value its field of each operand takes. -/
theorem test_words_integer : reads [
    (0x28301007, .add (.v 16) (.v 12) (.v 20) true), (0x28309007, .sub (.v 16) (.v 12) (.v 20) true),
    (0x28311007, .mul (.v 16) (.v 12) (.v 20) true), (0x28319007, .mulhiI32 (.v 16) (.v 12) (.v 20) true),
    (0x28321007, .mulhiN32 (.v 16) (.v 12) (.v 20) true), (0x00329007, .abs (.v 16) (.v 12) true),
    (0x00331007, .neg (.v 16) (.v 12) true), (0x2830100B, .minI32 (.v 16) (.v 12) (.v 20) true),
    (0x2830900B, .maxI32 (.v 16) (.v 12) (.v 20) true), (0x2831100B, .minN32 (.v 16) (.v 12) (.v 20) true),
    (0x2831900B, .maxN32 (.v 16) (.v 12) (.v 20) true), (0x2830100F, .and (.v 16) (.v 12) (.v 20) true),
    (0x2830900F, .or (.v 16) (.v 12) (.v 20) true), (0x2831100F, .xor (.v 16) (.v 12) (.v 20) true),
    (0x2831900F, .andn (.v 16) (.v 12) (.v 20) true), (0x0032100F, .not (.v 16) (.v 12) true),
    (0x0032900F, .popc (.v 16) (.v 12) true), (0x0033100F, .clz (.v 16) (.v 12) true),
    (0x0033900F, .brev (.v 16) (.v 12) true), (0x28301013, .shl (.v 16) (.v 12) (.v 20) true),
    (0x28309013, .shr (.v 16) (.v 12) (.v 20) true), (0x28311013, .sra (.v 16) (.v 12) (.v 20) true),
    (0x28319013, .rotl (.v 16) (.v 12) (.v 20) true), (0x28321013, .rotr (.v 16) (.v 12) (.v 20) true),
    (0x28301017, .add64 (.v 16) (.v 12) (.v 20) true), (0x28309017, .sub64 (.v 16) (.v 12) (.v 20) true),
    (0x28311017, .mul64 (.v 16) (.v 12) (.v 20) true), (0x28319017, .minI64 (.v 16) (.v 12) (.v 20) true),
    (0x28321017, .maxI64 (.v 16) (.v 12) (.v 20) true), (0x28329017, .minN64 (.v 16) (.v 12) (.v 20) true),
    (0x28331017, .maxN64 (.v 16) (.v 12) (.v 20) true), (0x00339017, .neg64 (.v 16) (.v 12) true),
    (0x2830101B, .addc (.v 16) (.v 12) (.v 20) true), (0x2830901B, .subb (.v 16) (.v 12) (.v 20) true),
    (0x2831101B, .madI32 (.v 16) (.v 12) (.v 20) true), (0x2831901B, .madI64 (.v 16) (.v 12) (.v 20) true)] = true := by decide +kernel

theorem test_words_compares : reads [
    (0x2830031F, .cmpEq 3 (.v 12) (.v 20) true), (0x2830831F, .cmpNe 3 (.v 12) (.v 20) true),
    (0x2831031F, .cmpLtI 3 (.v 12) (.v 20) true), (0x2831831F, .cmpLeI 3 (.v 12) (.v 20) true),
    (0x2832031F, .cmpLtN 3 (.v 12) (.v 20) true), (0x2832831F, .cmpLeN 3 (.v 12) (.v 20) true),
    (0x2833031F, .cmpTst 3 (.v 12) (.v 20) true), (0x28300323, .cmp64Eq 3 (.v 12) (.v 20) true),
    (0x28308323, .cmp64Ne 3 (.v 12) (.v 20) true), (0x28310323, .cmp64LtI 3 (.v 12) (.v 20) true),
    (0x28318323, .cmp64LeI 3 (.v 12) (.v 20) true), (0x28320323, .cmp64LtN 3 (.v 12) (.v 20) true),
    (0x28328323, .cmp64LeN 3 (.v 12) (.v 20) true), (0x28330323, .cmp64Tst 3 (.v 12) (.v 20) true)] = true := by decide +kernel

theorem test_words_fields : reads [
    (0x28301027, .bfeN (.v 16) (.v 12) (.v 20) true), (0x28309027, .bfeI (.v 16) (.v 12) (.v 20) true),
    (0x28311027, .bfi (.v 16) (.v 12) (.v 20) true), (0x28319027, .fshl (.v 16) (.v 12) (.v 20) true),
    (0x28321027, .fshr (.v 16) (.v 12) (.v 20) true), (0x28329027, .prmt (.v 16) (.v 12) (.v 20) true),
    (0x2833102B, .sel 6 (.v 16) (.v 12) (.v 20) true)] = true := by decide +kernel

theorem test_words_immediates : reads [
    (0xA832902F, .addi (.v 16) (.v 12) 0x2A5 true), (0xA8329033, .andi (.v 16) (.v 12) 0x2A5 true),
    (0xA8329037, .ori (.v 16) (.v 12) 0x2A5 true), (0xA832903B, .xori (.v 16) (.v 12) 0x2A5 true),
    (0x2630103F, .shli (.v 16) (.v 12) 19 true), (0x2630903F, .shri (.v 16) (.v 12) 19 true),
    (0x2631103F, .srai (.v 16) (.v 12) 19 true), (0x2631903F, .rotli (.v 16) (.v 12) 19 true),
    (0xAD2D1043, .li (.v 16) 0x15A5A true), (0xAD2D1047, .lih (.v 16) 0x15A5A true),
    (0x2832904B, .lea (.v 16) (.v 12) (.v 20) 5 true), (0xA832904F, .leai (.v 16) (.v 12) 0x2A5 true),
    (0xA8328253, .xset 2 (.v 12) 0x2A5 true), (0x00081057, .xget (.v 16) 2 true)] = true := by decide +kernel

theorem test_words_scalars : reads [
    (0x2830105B, .sadd 16 12 20 true), (0x2830905B, .ssub 16 12 20 true), (0x2831105B, .smul 16 12 20 true),
    (0x2831905B, .sand 16 12 20 true), (0x2832105B, .sor 16 12 20 true), (0x2832905B, .sxor 16 12 20 true),
    (0x2833105B, .sshl 16 12 20 true), (0x2833905B, .sshr 16 12 20 true), (0xA832905F, .saddi 16 12 0x2A5 true),
    (0xAD2D1063, .sli 16 0x15A5A true), (0x00301067, .v2s 16 (.v 12) true), (0x00309067, .s2v (.v 16) 12 true),
    (0x00311067, .smov 16 12 true), (0x28318367, .scmpEq 3 12 20 true), (0x28320367, .scmpLtI 3 12 20 true),
    (0x28328367, .scmpLtN 3 12 20 true), (0x28330367, .scmpNe 3 12 20 true)] = true := by decide +kernel

theorem test_words_float : reads [
    (0x2830106B, .fadd (.v 16) (.v 12) (.v 20) true), (0x2830906B, .fsub (.v 16) (.v 12) (.v 20) true),
    (0x2831106B, .fmul (.v 16) (.v 12) (.v 20) true), (0x2831906B, .fmin (.v 16) (.v 12) (.v 20) true),
    (0x2832106B, .fmax (.v 16) (.v 12) (.v 20) true), (0x0032906B, .fabs (.v 16) (.v 12) true),
    (0x0033106B, .fneg (.v 16) (.v 12) true), (0x0033906B, .fclass (.v 16) (.v 12) true),
    (0x2830106F, .ffma (.v 16) (.v 12) (.v 20) true), (0x2830906F, .ffms (.v 16) (.v 12) (.v 20) true),
    (0x2831106F, .fnma (.v 16) (.v 12) (.v 20) true), (0x2831906F, .fnms (.v 16) (.v 12) (.v 20) true),
    (0x28301073, .faddF16 (.v 16) (.v 12) (.v 20) true), (0x28309073, .fsubF16 (.v 16) (.v 12) (.v 20) true),
    (0x28311073, .fmulF16 (.v 16) (.v 12) (.v 20) true), (0x28319073, .fminF16 (.v 16) (.v 12) (.v 20) true),
    (0x28321073, .fmaxF16 (.v 16) (.v 12) (.v 20) true), (0x00329073, .fabsF16 (.v 16) (.v 12) true),
    (0x00331073, .fnegF16 (.v 16) (.v 12) true), (0x00339073, .fclassF16 (.v 16) (.v 12) true),
    (0x28301077, .faddBf16 (.v 16) (.v 12) (.v 20) true), (0x28309077, .fsubBf16 (.v 16) (.v 12) (.v 20) true),
    (0x28311077, .fmulBf16 (.v 16) (.v 12) (.v 20) true), (0x28319077, .fminBf16 (.v 16) (.v 12) (.v 20) true),
    (0x28321077, .fmaxBf16 (.v 16) (.v 12) (.v 20) true), (0x00329077, .fabsBf16 (.v 16) (.v 12) true),
    (0x00331077, .fnegBf16 (.v 16) (.v 12) true), (0x00339077, .fclassBf16 (.v 16) (.v 12) true)] = true := by decide +kernel

theorem test_words_float_pairs : reads [
    (0x2830107B, .faddF64 (.v 16) (.v 12) (.v 20) true), (0x2830907B, .fsubF64 (.v 16) (.v 12) (.v 20) true),
    (0x2831107B, .fmulF64 (.v 16) (.v 12) (.v 20) true), (0x2831907B, .fminF64 (.v 16) (.v 12) (.v 20) true),
    (0x2832107B, .fmaxF64 (.v 16) (.v 12) (.v 20) true), (0x2832907B, .ffmaF64 (.v 16) (.v 12) (.v 20) true),
    (0x0033107B, .fabsF64 (.v 16) (.v 12) true), (0x0033907B, .fnegF64 (.v 16) (.v 12) true),
    (0x2830037F, .fcmpEq 3 (.v 12) (.v 20) true), (0x2830837F, .fcmpLt 3 (.v 12) (.v 20) true),
    (0x2831037F, .fcmpLe 3 (.v 12) (.v 20) true), (0x2831837F, .fcmpUn 3 (.v 12) (.v 20) true),
    (0x2832037F, .fcmpEqF64 3 (.v 12) (.v 20) true), (0x2832837F, .fcmpLtF64 3 (.v 12) (.v 20) true),
    (0x2833037F, .fcmpLeF64 3 (.v 12) (.v 20) true), (0x2833837F, .fcmpUnF64 3 (.v 12) (.v 20) true)] = true := by decide +kernel

theorem test_words_conversions : reads [
    (0x40319083, .cvt .rup (.v 16) (.v 12) 0x20 true), (0x06301087, .frnd (.v 16) (.v 12) .rup true),
    (0x28309087, .fscl (.v 16) (.v 12) (.v 20) true), (0x28311087, .fpk16 (.v 16) (.v 12) (.v 20) true),
    (0x28319087, .fpkbf (.v 16) (.v 12) (.v 20) true), (0x00321087, .fupk16 (.v 16) (.v 12) true),
    (0x00329087, .fupkbf (.v 16) (.v 12) true), (0x2830108B, .dot4I8 (.v 16) (.v 12) (.v 20) true),
    (0x2830908B, .dot4N8 (.v 16) (.v 12) (.v 20) true), (0x2831108B, .dot8I4 (.v 16) (.v 12) (.v 20) true),
    (0x2831908B, .dot8N4 (.v 16) (.v 12) (.v 20) true), (0x2832108B, .fdot4E4m3 (.v 16) (.v 12) (.v 20) true),
    (0x2832908B, .fdot4E5m2 (.v 16) (.v 12) (.v 20) true), (0x2833108B, .fdot8E2m1 (.v 16) (.v 12) (.v 20) true),
    (0x2833908B, .fdot2Bf16 (.v 16) (.v 12) (.v 20) true), (0x0030108F, .rcp (.v 16) (.v 12) true),
    (0x0030908F, .rsq (.v 16) (.v 12) true), (0x0031108F, .sqrt (.v 16) (.v 12) true),
    (0x0031908F, .exp2 (.v 16) (.v 12) true), (0x0032108F, .log2 (.v 16) (.v 12) true),
    (0x0032908F, .sin (.v 16) (.v 12) true), (0x0033108F, .cos (.v 16) (.v 12) true),
    (0x0033908F, .tanh (.v 16) (.v 12) true), (0x28301093, .rngQ0 (.v 16) (.v 12) (.v 20) true),
    (0x28309093, .rngQ1 (.v 16) (.v 12) (.v 20) true), (0x28311093, .rngQ2 (.v 16) (.v 12) (.v 20) true),
    (0x28319093, .rngQ3 (.v 16) (.v 12) (.v 20) true), (0x28321093, .rngf (.v 16) (.v 12) (.v 20) true)] = true := by decide +kernel

theorem test_words_lanes : reads [
    (0x28301097, .shflIdx (.v 16) (.v 12) (.v 20) true), (0x28309097, .shflUp (.v 16) (.v 12) (.v 20) true),
    (0x28311097, .shflDown (.v 16) (.v 12) (.v 20) true), (0x28319097, .shflXor (.v 16) (.v 12) (.v 20) true),
    (0x0014039B, .voteAny 3 5 true), (0x0014839B, .voteAll 3 5 true), (0x0015039B, .voteEq 3 5 true),
    (0x0015909B, .voteBallot 16 5 true), (0x0032109B, .voteMatch (.v 16) (.v 12) true), (0x0003109B, .voteActive 16 true),
    (0x0003839B, .voteElect 3 true)] = true := by decide +kernel

theorem test_words_control : reads [
    (0x8123BB9F, .br 0x8123 true 3 5 true true), (0x8123BBA3, .call 0x8123 true 3 5 true true),
    (0x003000A7, .jmpi (.v 12) true), (0x003080A7, .calli (.v 12) true), (0x000100A7, .ret true), (0x0A0180A7, .prio 5 true),
    (0x000200A7, .exit true), (0x000280A7, .nop true)] = true := by decide +kernel

theorem test_words_spawns : reads [
    (0x283303AB, .spawn 6 3 (.v 12) (.v 20) true), (0x003000AF, .joinw (.v 12) true), (0x003083AF, .joint 3 (.v 12) true),
    (0x283100AF, .waitw (.v 12) (.v 20) true), (0x003183AF, .launch 3 (.v 12) true)] = true := by decide +kernel

theorem test_words_loads_stores : reads [
    (0xAA3010B3, .ldgB8N (.v 16) (.v 12) 0x55 true), (0xAA3090B3, .ldgB8I (.v 16) (.v 12) 0x55 true),
    (0xAA3110B3, .ldgB16N (.v 16) (.v 12) 0x55 true), (0xAA3190B3, .ldgB16I (.v 16) (.v 12) 0x55 true),
    (0xAA3210B3, .ldgB32 (.v 16) (.v 12) 0x55 true), (0xAA3290B3, .ldgB64 (.v 16) (.v 12) 0x55 true),
    (0xAA3310B3, .ldgB128 (.v 16) (.v 12) 0x55 true), (0xAA3010B7, .stgB8 (.v 16) (.v 12) 0x55 true),
    (0xAA3090B7, .stgB16 (.v 16) (.v 12) 0x55 true), (0xAA3110B7, .stgB32 (.v 16) (.v 12) 0x55 true),
    (0xAA3190B7, .stgB64 (.v 16) (.v 12) 0x55 true), (0xAA3210B7, .stgB128 (.v 16) (.v 12) 0x55 true),
    (0xAA3010BB, .stgpB8 (.v 16) (.v 12) 0x55 true), (0xAA3090BB, .stgpB16 (.v 16) (.v 12) 0x55 true),
    (0xAA3110BB, .stgpB32 (.v 16) (.v 12) 0x55 true), (0xAA3190BB, .stgpB64 (.v 16) (.v 12) 0x55 true),
    (0xAA3210BB, .stgpB128 (.v 16) (.v 12) 0x55 true), (0xAA3010BF, .ldaB8N (.v 16) (.v 12) 0x55 true),
    (0xAA3090BF, .ldaB8I (.v 16) (.v 12) 0x55 true), (0xAA3110BF, .ldaB16N (.v 16) (.v 12) 0x55 true),
    (0xAA3190BF, .ldaB16I (.v 16) (.v 12) 0x55 true), (0xAA3210BF, .ldaB32 (.v 16) (.v 12) 0x55 true),
    (0xAA3290BF, .ldaB64 (.v 16) (.v 12) 0x55 true), (0xAA3310BF, .ldaB128 (.v 16) (.v 12) 0x55 true),
    (0xAA3010C3, .staB8 (.v 16) (.v 12) 0x55 true), (0xAA3090C3, .staB16 (.v 16) (.v 12) 0x55 true),
    (0xAA3110C3, .staB32 (.v 16) (.v 12) 0x55 true), (0xAA3190C3, .staB64 (.v 16) (.v 12) 0x55 true),
    (0xAA3210C3, .staB128 (.v 16) (.v 12) 0x55 true)] = true := by decide +kernel

theorem test_words_windows_hints : reads [
    (0xAA3010C7, .ldpB32 (.v 16) (.v 12) 0x55 true), (0xAA3090C7, .ldpB64 (.v 16) (.v 12) 0x55 true),
    (0xAA3110C7, .ldpB128 (.v 16) (.v 12) 0x55 true), (0xAA3190C7, .stpB32 (.v 16) (.v 12) 0x55 true),
    (0xAA3210C7, .stpB64 (.v 16) (.v 12) 0x55 true), (0xAA3290C7, .stpB128 (.v 16) (.v 12) 0x55 true),
    (0xAA3000CB, .pfgL1 (.v 12) 0x55 true), (0xAA3080CB, .pfgL2 (.v 12) 0x55 true),
    (0xAA3110CB, .ldc (.v 16) (.v 12) 0x55 true)] = true := by decide +kernel

theorem test_words_atomics : reads [
    (0x283010CF, .atomAdd (.v 16) (.v 12) (.v 20) true), (0x283090CF, .atomMinI (.v 16) (.v 12) (.v 20) true),
    (0x283110CF, .atomMaxI (.v 16) (.v 12) (.v 20) true), (0x283190CF, .atomAnd (.v 16) (.v 12) (.v 20) true),
    (0x283210CF, .atomOr (.v 16) (.v 12) (.v 20) true), (0x283290CF, .atomXor (.v 16) (.v 12) (.v 20) true),
    (0x283310CF, .atomXchg (.v 16) (.v 12) (.v 20) true), (0x283390CF, .atomFaddF32 (.v 16) (.v 12) (.v 20) true),
    (0x283010D3, .atomAddI64 (.v 16) (.v 12) (.v 20) true), (0x283090D3, .atomMinI64 (.v 16) (.v 12) (.v 20) true),
    (0x283110D3, .atomMaxI64 (.v 16) (.v 12) (.v 20) true), (0x283190D3, .atomMinN64 (.v 16) (.v 12) (.v 20) true),
    (0x283210D3, .atomMaxN64 (.v 16) (.v 12) (.v 20) true), (0x283290D3, .atomXchg64 (.v 16) (.v 12) (.v 20) true),
    (0x283310D3, .atomAddI128 (.v 16) (.v 12) (.v 20) true), (0x283390D3, .atomFaddF64 (.v 16) (.v 12) (.v 20) true),
    (0x283010D7, .cas32 (.v 16) (.v 12) (.v 20) true), (0x283090D7, .cas64 (.v 16) (.v 12) (.v 20) true),
    (0x283110D7, .cas128 (.v 16) (.v 12) (.v 20) true)] = true := by decide +kernel

theorem test_words_barriers : reads [
    (0x000000DB, .bar true), (0x003080DB, .barm (.v 12) true), (0x003010DF, .barrAddI64 (.v 16) (.v 12) true),
    (0x003090DF, .barrAddF32 (.v 16) (.v 12) true), (0x003110DF, .barrAddF64 (.v 16) (.v 12) true),
    (0x003190DF, .barrMinF32 (.v 16) (.v 12) true), (0x003210DF, .barrMaxF32 (.v 16) (.v 12) true),
    (0x003290DF, .barrMinI64 (.v 16) (.v 12) true), (0x003310DF, .barrMaxI64 (.v 16) (.v 12) true),
    (0x003390DF, .barrOrB32 (.v 16) (.v 12) true), (0x000000E3, .fenceC true), (0x000080E3, .fenceT true),
    (0x000100E3, .fenceD true), (0x000180E3, .fenceK true), (0x000200E3, .fenceX true)] = true := by decide +kernel

theorem test_words_transactions : reads [
    (0x000000E7, .txb true), (0x000080E7, .txe true), (0x003100E7, .txa (.v 12) true), (0x000183E7, .txs 3 true)] = true := by decide +kernel

theorem test_words_copies : reads [
    (0x003029EB, .bcpG2a 12 41 true), (0x0030A9EB, .bcpG2ax 12 41 true), (0x003129EB, .bcpG2rx 12 41 true),
    (0x0031A9EB, .bcpA2g 12 41 true), (0x003229EB, .bcpQ2g 12 41 true), (0x0032A9EB, .bcpG2g 12 41 true),
    (0x003329EB, .bcpRem 12 41 true), (0x0033A9EB, .bcpScld 12 41 true), (0x003000EF, .twait 12 true),
    (0x003080EF, .twany 12 true), (0x003110EF, .tfirst 16 12 true), (0x003180EF, .tclr 12 true),
    (0x520210EF, .tstat 16 41 true)] = true := by decide +kernel

theorem test_words_matrix : reads [
    (0x000000F3, .mmodeC true), (0x000080F3, .mmodeS true), (0x000100F3, .mcal true), (0x283001F7, .mmulEx true 12 20 true),
    (0x283081F7, .mmulAp1 true 12 20 true), (0x283101F7, .mmulAp2 true 12 20 true), (0x283181F7, .mmulAp4 true 12 20 true),
    (0x003000FB, .mzero 12 true), (0x003090FB, .mrd (.v 16) 12 true), (0x003110FB, .mwr (.v 16) 12 true),
    (0x0031A9FB, .mdrain 12 41 true), (0x003229FB, .mdrainAddF32 12 41 true), (0x0032A9FB, .mdrainAddI32 12 41 true),
    (0x003329FB, .mdrainAddI64 12 41 true)] = true := by decide +kernel

theorem test_words_system : reads [
    (0x9A0000FF, .trap 0x4D true), (0x9A0080FF, .brk 0x4D true), (0x000100FF, .eret true),
    (0x0A0190FF, .srd (.v 16) .gtid true), (0x223200FF, .swr (.fflags (.v 12)) true), (0x020290FF, .srds 16 .wwid true)] = true := by decide +kernel

theorem test_words_halfwords : reads16 [
    (0xB446, .mov16 17 22 true), (0xB44A, .add16 17 22 true), (0xB44E, .sub16 17 22 true), (0xB452, .and16 17 22 true),
    (0xB456, .or16 17 22 true), (0xB45A, .xor16 17 22 true), (0xB45E, .shl16 17 22 true), (0xB462, .shr16 17 22 true),
    (0xB466, .addi16 17 0b10110 true), (0xB46A, .mul16 17 22 true), (0xB46E, .fadd16 17 22 true),
    (0xB472, .fsub16 17 22 true), (0xB476, .fmul16 17 22 true), (0xB47A, .fmax16 17 22 true), (0xB47E, .fmin16 17 22 true)] = true := by decide +kernel

/-! ## Checks of the hypotheses that the statements share -/

/-- A statement about the lanes of a mask is one about the 64 lanes. -/
theorem lanes_iff (m : Mask) (P : Nat → Prop) :
    (∀ L, m.getLsbD L = true → P L) ↔ ∀ L ∈ List.range 64, m.getLsbD L = true → P L := by
  refine ⟨fun h L _ => h L, fun h L hL => h L (List.mem_range.2 ?_) hL⟩
  by_contra hn
  rw [BitVec.getLsbD_of_ge _ _ (by omega)] at hL
  cases hL

def issuesB (s : State) (w : Warp) (e : FEntry) : Bool :=
  decide (s.cur = some w) && s.warps.all (fun x => x.uid != w.uid) && decide (w.selected = some e) && e.pfail.isEmpty
    && e.mask != 0 && (List.range 64).all (fun L => !e.mask.getLsbD L || decide (L < w.lanes.length)) && w.window.isNone
    && w.heldTraps.isEmpty && !w.failing && !w.stopped && w.pend.isEmpty && w.wait.isNone

theorem issues_iff (s : State) (w : Warp) (e : FEntry) : Issues s w e ↔ issuesB s w e = true := by
  have hl := lanes_iff e.mask (fun L => L < w.lanes.length)
  have h : issuesB s w e = true ↔ s.cur = some w ∧ (∀ x ∈ s.warps, x.uid ≠ w.uid) ∧ w.selected = some e ∧ e.pfail = [] ∧
      e.mask ≠ 0 ∧ (∀ L ∈ List.range 64, e.mask.getLsbD L = true → L < w.lanes.length) ∧ w.window = none ∧ w.heldTraps = [] ∧
      w.failing = false ∧ w.stopped = false ∧ w.pend = [] ∧ w.wait = none := by
    simp [issuesB, and_assoc, imp_iff_not_or]
  rw [h, ← hl]
  exact ⟨fun h => ⟨h.cur, h.alone, h.selected, h.pfail, h.active, h.lanes, h.window, h.noTraps, h.sound, h.going, h.pend, h.wait⟩,
    fun ⟨a, b, c, d, x, f, g, h, i, j, k, l⟩ => ⟨a, b, c, d, x, f, g, h, i, j, k, l⟩⟩

theorem runs_iff (s : State) (w : Warp) (e : FEntry) : Runs s w e ↔ (issuesB s w e && !w.anyTx) = true := by
  rw [Bool.and_eq_true, ← issues_iff, Bool.not_eq_true']
  exact ⟨fun h => ⟨h.toIssues, h.noTx⟩, fun ⟨a, b⟩ => ⟨a, b⟩⟩

theorem ready_iff (w : Warp) (e : FEntry) (src dst : List (VReg × Nat)) : OperandsReady w e src dst ↔
    (List.range 64).all (fun L => !e.mask.getLsbD L || (w.lane L).ready w.alloc src dst) = true := by
  unfold OperandsReady
  rw [lanes_iff]
  simp [imp_iff_not_or]

def idleB (s : State) : Bool :=
  s.lines.all (fun r => r.isOpen && r.hostFree && r.queue.isEmpty && r.narrow.isEmpty && r.wb.isEmpty)
    && s.dies.all (fun d => d.slices.all (fun x => x.retry.isEmpty))

theorem idle_iff (s : State) : State.HomesIdle s ↔ idleB s = true := by
  have h : idleB s = true ↔ (∀ r ∈ s.lines, r.isOpen = true ∧ r.hostFree = true ∧ r.queue = [] ∧ r.narrow = [] ∧ r.wb = []) ∧
      ∀ d ∈ s.dies, ∀ x ∈ d.slices, x.retry = [] := by
    simp [idleB, and_assoc]
  rw [h]
  exact ⟨fun h => ⟨h.lines, h.slices⟩, fun ⟨a, b⟩ => ⟨a, b⟩⟩

def calmB (s : State) : Bool :=
  idleB s && s.posted.isEmpty && s.defer.isEmpty && decide ((s.warps.flatMap (fun x => x.loads)).length < 8)
    && s.warps.all (fun x => x.window.isNone && !x.anyTx)

theorem calm_iff (s : State) : State.Calm s ↔ calmB s = true := by
  have h : calmB s = true ↔ State.HomesIdle s ∧ s.posted = [] ∧ s.defer = [] ∧ (s.warps.flatMap (fun x => x.loads)).length < 8 ∧
      ∀ x ∈ s.warps, x.window = none ∧ x.anyTx = false := by
    simp only [calmB, Bool.and_eq_true, ← idle_iff]
    simp [and_assoc]
  rw [h]
  exact ⟨fun h => ⟨h.toHomesIdle, h.posted, h.defer, h.loads, h.warps⟩, fun ⟨a, b, c, d, e⟩ => ⟨a, b, c, d, e⟩⟩

def performedB (w : Warp) : Bool :=
  w.sent.isEmpty && w.loads.isEmpty && !w.cmpWait && w.lanes.all (fun l => l.tx.state == .active || l.tx.wset.isEmpty)

theorem performed_iff (w : Warp) : Warp.performed w ↔ performedB w = true := by
  simp [Warp.performed, performedB, and_assoc, imp_iff_not_or]

theorem between_iff (s : State) (w : Warp) : Between s w ↔
    (s.cur.isNone && s.snooped.isNone && s.warps.contains w && s.warps.all (fun x => x.uid != w.uid || decide (x = w))) = true := by
  have h : (s.cur.isNone && s.snooped.isNone && s.warps.contains w && s.warps.all (fun x => x.uid != w.uid || decide (x = w))) = true ↔
      s.cur = none ∧ s.snooped = none ∧ w ∈ s.warps ∧ ∀ x ∈ s.warps, x.uid = w.uid → x = w := by
    simp [and_assoc, imp_iff_not_or]
  rw [h]
  exact ⟨fun h => ⟨h.cur, h.snooped, h.here, h.alone⟩, fun ⟨a, b, c, d⟩ => ⟨a, b, c, d⟩⟩

def reachesB (s : State) (d k asid : Nat) (acc : Access) (ea n pa : Nat) : Bool :=
  decide (ea % n = 0) && decide (ea < 2 ^ 55) && s.populated pa && (match (s.core d k).tlb.find? (fun x => x.covers asid ea) with
    | some x => decide (x.pa ea = pa) && !x.io && decide (x.refuses acc = none)
    | none => false)

theorem reachesAt_iff (s : State) (d k asid : Nat) (acc : Access) (ea n pa : Nat) :
    ReachesAt s d k asid acc ea n pa ↔ reachesB s d k asid acc ea n pa = true := by
  unfold reachesB
  constructor
  · rintro ⟨a, b, ⟨x, h, g1, g2, g3⟩, p⟩
    simpa [a, h, g1, g2, g3, p] using b
  · intro h
    split at h
    · rename_i x hx
      simp only [Bool.and_eq_true, decide_eq_true_eq, Bool.not_eq_true'] at h
      exact ⟨h.1.1.1, h.1.1.2, ⟨x, hx, h.2.1.1, h.2.1.2, h.2.2⟩, h.1.2⟩
    · simp at h

theorem reaches_iff (s : State) (w : Warp) (acc : Access) (ea n pa : Nat) :
    Reaches s w acc ea n pa ↔ reachesB s w.die w.core (s.asidOf w.gk) acc ea n pa = true :=
  reachesAt_iff _ _ _ _ _ _ _ _

theorem owns_iff (s : State) (w : Warp) (m : Team) : OwnsMatrix s w m ↔
    (!w.gathered && (s.recOf w.gk).mat && decide ((s.core w.die w.core).mat = some (w.gk, (w.lane 0).team.toNat)) &&
      decide (s.team? w.gk (w.lane 0).team.toNat = some m)) = true := by
  simp only [Bool.and_eq_true, Bool.not_eq_true', decide_eq_true_eq, and_assoc]
  exact ⟨fun h => ⟨h.original, h.mat, h.owner, h.team⟩, fun ⟨a, b, c, d⟩ => ⟨a, b, c, d⟩⟩

theorem handles_iff (s : State) (w : Warp) (pa : Nat) : Handles s w pa ↔ (decide ((s.recOf w.gk).traph ≠ 0) && !w.handler &&
    reachesB s w.die w.core (s.asidOf w.gk) .write (trapRecAddr (s.recOf w.gk).trapa w).toNat 64 pa) = true := by
  simp only [Bool.and_eq_true, Bool.not_eq_true', decide_eq_true_eq, and_assoc, ← reaches_iff]
  exact ⟨fun h => ⟨h.handler, h.outside, h.place⟩, fun ⟨a, b, c⟩ => ⟨a, b, c⟩⟩

/-! ## A small package: one warp of 16 lanes, of which lanes 0 and 1 are at the entry -/

/-- Registers of a lane: addresses of data in v4:v5, offsets of a private window and of array memory in v6 and v7, a lane mask in
v12:v13, a place in the program in v14:v15, a join counter in v24:v25, an offset of the constant block in v26. -/
def regs0 (L : Nat) : List Word :=
  [1, 2, 7, 0xFFFFFFFF, BitVec.ofNat 32 (0x50000 + 256 * L), 0, BitVec.ofNat 32 (2032 * L), BitVec.ofNat 32 (491504 * L), 3, 4, 5, 6, 3, 0,
    0x10100, 0, 16, 17, 18, 19, 20, 21, 22, 23, 0x51000, 0, BitVec.ofNat 32 (4092 * L)] ++ List.replicate 97 0

def lane0 (L : Nat) : Lane := { Lane.init 124 with regs := regs0 L, gtid := BitVec.ofNat 64 L, xr := [30, 0, 123] }

/-- A grid with a trap handler, a constant block of 4,096 bytes, matrix ownership, one spawn entry, a ring and a save area. -/
def rec0 : LaunchRec :=
  { progRecord with
    shape := BitVec.ofNat 32 (31 * 2 ^ 8 + 32 * 2 ^ 13 + 4 * 2 ^ 20 + 2 ^ 25), traph := 0x14000, trapa := 0x60000, const := 0x52000,
    constsz := 4096, array := 40, grid := 9, spawn := [0x15000, 0x15100, 0, 0, 0, 0, 0, 0],
    ring := 0x200000, ringsz := 0x100000, save := 0x900000, savesz := 0x10000 }

def e0 : FEntry := .at 0x10000 4 3

def seat0 : Seat := { ctx := 0, units := 31, base := 0, width := 16, start := 0, words := 292 }

def w0 : Warp :=
  { Warp.start 1 0 0 0 seat0 rec0 0 false 0x10000 3 ((List.range 16).map lane0) with inRun := true }

def m0 : Team :=
  { gk := 0, idx := 0, die := 0, core := 0, twin := false, mat := true, units := 40, p0 := 0, tflags := 0, st := .running,
    placedAt := 0, arrivals := [], mode := .idle, due := none }

def g0 : Grid :=
  { key := 0, rcd := rec0, addr := 0, byRuntime := true, queue := 0, st := .ready, nextTeam := 1, ended := 0, parentKey := none,
    drained := false, drainTold := false, killed := false, finished := false }

/-- One page of 512 MiB mapped onto itself. -/
def page0 : TlbEntry := { asid := 0, page := 0, big := true, frame := 0, r := true, w := true, x := true, io := false }

def core0 : Core :=
  { Core.init with
    slots := [some 1, none, none, none], tlb := [page0], mat := some (0, 0),
    units := List.replicate 40 { CimUnit.init with mode := .storage, owner := some (0, 0) } }

/-- The package with a warp issuing. -/
def world (w : Warp) : State :=
  { State.reset with
    mem := progTables.foldl (fun m e => Memory.writes m e.1 (toBytes 8 e.2)) []
    cur := some w, cores := core0 :: List.replicate 383 Core.init, grids := [g0], teams := [m0], nextUid := 2,
    mmu := { State.reset.mmu with atbase := 0x40000 } }

/-- The package with no instruction under way. -/
def still (w : Warp) : State := { world w with cur := none, warps := [w] }

def s0 : State := world w0

/-- Where an address of the small package is. -/
def same (a : DWord) : Nat := a.toNat

/-! ## Every statement's hypotheses are met somewhere -/

/-- The warp of the small package runs plainly. -/
theorem runs0 : Runs s0 w0 e0 := by
  simp only [runs_iff]
  decide +kernel

theorem calm0 : State.Calm s0 := by
  simp only [calm_iff]
  decide +kernel

theorem performed0 : Warp.performed w0 := by
  rw [performed_iff]
  decide +kernel

theorem between0 : Between (still w0) w0 := by
  simp only [between_iff]
  decide +kernel

theorem calm1 : State.Calm (still w0) := by
  simp only [calm_iff]
  decide +kernel

theorem owns0 : OwnsMatrix s0 w0 m0 := by
  simp only [owns_iff]
  decide +kernel

theorem handles0 : Handles s0 w0 0x60000 := by
  simp only [handles_iff]
  decide +kernel

theorem noFlagTraps (f : FFlags) : f &&& wmTen w0.wmode = 0 := by
  have : wmTen w0.wmode = 0 := by decide +kernel
  simp [this]

/-- Operands at the end of the allocation, indexed ones at its end and inside it, and vz are in order. -/
theorem ready0 (src dst : List (VReg × Nat))
    (h : (List.range 2).all (fun L => (w0.lane L).ready w0.alloc src dst) = true) : OperandsReady w0 e0 src dst := by
  unfold OperandsReady
  rw [lanes_iff]
  intro L _ hL
  have : ∀ L ∈ List.range 64, e0.mask.getLsbD L = true → L < 2 := by decide +kernel
  exact List.all_eq_true.1 h L (List.mem_range.2 (this L ‹_› hL))

theorem witness_IntegerResults : Runs s0 w0 e0 ∧
    (∀ x ∈ ([([(.v 123, 1), (.ix 2, 1)], [(.z, 1)]), ([(.v 122, 2), (.ix 0, 2)], [(.v 122, 2)]), ([(.v 2, 2)], [(.ix 0, 2)]),
      ([(.v 122, 2), (.v 2, 2), (.z, 2)], [])] : List (List (VReg × Nat) × List (VReg × Nat))), OperandsReady w0 e0 x.1 x.2) := by
  refine ⟨runs0, ?_⟩
  simp only [ready_iff]
  decide +kernel

theorem witness_CompareLogicAndFieldResults : Runs s0 w0 e0 ∧
    (∀ x ∈ ([([(.v 123, 1), (.ix 2, 1)], []), ([(.ix 0, 2), (.v 122, 2)], []), ([(.v 122, 2), (.v 123, 1)], [(.v 123, 1)]),
      ([(.v 2, 1), (.v 3, 1), (.z, 1)], []), ([], [])] : List (List (VReg × Nat) × List (VReg × Nat))),
      OperandsReady w0 e0 x.1 x.2) := by
  refine ⟨runs0, ?_⟩
  simp only [ready_iff]
  decide +kernel

theorem witness_ImmediateAddressIndexResults : Runs s0 w0 e0 ∧
    OperandsReady w0 e0 [(.v 123, 1)] [(.ix 2, 1)] ∧ OperandsReady w0 e0 [(.v 122, 2), (.v 3, 1)] [(.ix 0, 2)] := by
  refine ⟨runs0, ?_⟩
  simp only [ready_iff]
  decide +kernel

/-- Lane 1, above the lowest of the entry, names a register out of range. -/
theorem witness_ScalarResults : Runs s0 w0 e0 ∧ (let w := { w0 with lanes := w0.lanes.mapIdx (fun L l => if L = 1 then { l with xr := [124, 0, 0] } else l) };
      Runs (world w) w e0 ∧ (w.lane (lowestLane e0.mask)).ready w.alloc [(.ix 0, 1)] [] = true ∧ (w.lane 1).ready w.alloc [(.ix 0, 1)] [] = false) ∧ OperandsReady w0 e0 [] [(.v 123, 1)] := by
  refine ⟨runs0, ?_⟩
  simp only [runs_iff, ready_iff]
  decide +kernel

theorem witness_HalfwordFormResults : Runs s0 w0 e0 ∧ OperandsReady w0 e0 [(.v 31, 1), (.v 0, 1)] [] ∧
    ∀ f : FFlags, f &&& wmTen w0.wmode = 0 := by
  refine ⟨runs0, ?_, noFlagTraps⟩
  simp only [ready_iff]
  decide +kernel

theorem witness_FloatResults : Runs s0 w0 e0 ∧
    (∀ x ∈ ([([(.v 123, 1), (.ix 2, 1)], [(.z, 1)]), ([(.ix 0, 2), (.v 122, 2)], [(.v 122, 2)]), ([(.v 2, 2), (.v 4, 2), (.z, 2)], [])]
      : List (List (VReg × Nat) × List (VReg × Nat))), OperandsReady w0 e0 x.1 x.2) ∧ ∀ f : FFlags, f &&& wmTen w0.wmode = 0 := by
  refine ⟨runs0, ?_, noFlagTraps⟩
  simp only [ready_iff]
  decide +kernel

theorem witness_ConversionResults : Runs s0 w0 e0 ∧
    (∀ x ∈ [(0x00, (1, 2)), (0x01, (2, 1)), (0x02, (1, 1)), (0x44, (4, 1)), (0x51, (1, 1))],
      (cvtKind x.1).isSome = true ∧ cvtWidths (BitVec.ofNat 7 x.1) = some x.2 ∧
      OperandsReady w0 e0 [(.v 120, x.2.2)] [(.v 120, x.2.1)]) ∧ ∀ f : FFlags, f &&& wmTen w0.wmode = 0 := by
  refine ⟨runs0, ?_, noFlagTraps⟩
  simp only [ready_iff]
  decide +kernel

theorem witness_FunctionAndRandomResults : Runs s0 w0 e0 ∧ OperandsReady w0 e0 [(.v 123, 1)] [(.v 0, 1)] ∧
    OperandsReady w0 e0 [(.v 122, 2), (.ix 0, 2)] [(.v 120, 4)] ∧ ∀ f : FFlags, f &&& wmTen w0.wmode = 0 := by
  refine ⟨runs0, ?_⟩
  rw [← and_assoc]
  refine ⟨?_, noFlagTraps⟩
  simp only [ready_iff]
  decide +kernel

/-- A shuffle whose sources are lane 5 and the lane itself, votes and a match. -/
theorem witness_LaneExchangeResults : Runs s0 w0 e0 ∧ OperandsReady w0 e0 [(.v 10, 1)] [(.v 123, 1)] ∧
    OperandsReady w0 e0 [(.v 123, 1)] [(.v 122, 2)] ∧ OperandsReady w0 e0 [] [] ∧ 0 < w0.width ∧
    (∀ k, VReg.v 123 = .v k → k.val < w0.alloc) ∧ (w0.lane 5).life = .live ∧
    VReg.inOrder w0.alloc (w0.lane 5) (.v 123, 1) = true ∧ VReg.sound (w0.lane 5) (.v 123, 1) = true := by
  refine ⟨runs0, ready0 _ _ ?_, ready0 _ _ ?_, ready0 _ _ ?_, ?_, fun k h => ?_, ?_⟩
  case refine_5 => cases h; decide +kernel
  all_goals decide +kernel

/-- The small package's warp with return stacks of 31 entries, one below the depth, and a join counter. -/
def w1 : Warp := { w0 with lanes := w0.lanes.map (fun l => { l with stack := List.replicate 31 0x10100, join := some 0x51000 }) }

theorem witness_TransfersAndExitMoveLanes :
    Runs (world w1) w1 e0 ∧ OperandsReady w1 e0 [(.v 14, 2)] [] ∧ State.Calm (world w1) ∧ Warp.performed w1 ∧
    (∀ L, e0.mask.getLsbD L = true → (w1.lane L).pred 7 = true ∧ (w1.lane L).pred 0 = false ∧
      ((w1.lane L).vp w1.alloc (.v 14)).getLsbD 0 = false ∧ ((w1.lane L).vp w1.alloc (.v 14)).toNat < 2 ^ 55 ∧
      (w1.lane L).stack.length < 8 * (((world w1).recOf w1.gk).shape.toNat / 2 ^ 20 % 2 ^ 4) ∧ (w1.lane L).stack ≠ [] ∧
      ((w1.lane L).stack.headD 0).getLsbD 0 = false ∧ ((w1.lane L).stack.headD 0).toNat < 2 ^ 55 ∧
      (w1.lane L).stackPoison.contains ((w1.lane L).stack.length - 1) = false ∧
      (w1.lane L).join = some 0x51000) ∧ Reaches (world w1) w1 .atomic 0x51000 8 0x51000 ∧ touchesPoison (world w1).poison 0x51000 8 = false ∧
    (world w1).copyDue w1 = false ∧ w1.barm = none ∧ (∀ x ∈ (world w1).teams, x.arrivals = [] ∧ x.mode = .idle) ∧ w1.handler = false := by
  simp only [runs_iff, ready_iff, calm_iff, performed_iff, lanes_iff, reaches_iff]
  decide +kernel

/-- Global accesses: lanes at 0x50000 and 0x50100, at the last whole quad of a page by offset, and at the last word of the
constant block. -/
theorem witness_GlobalLoadsReadMemory : Runs s0 w0 e0 ∧ State.Calm s0 ∧ Warp.performed w0 ∧
    (∀ n ∈ [1, 2, 4, 8, 16], OperandsReady w0 e0 [(.v 4, 2)] [(.v 120, if n ≤ 4 then 1 else n / 4)] ∧
      ∀ L, e0.mask.getLsbD L = true →
        let ea := ((w0.lane L).vp w0.alloc (.v 4) + (0x7F#7).signExtend 64 * BitVec.ofNat 64 n).toNat
        Reaches s0 w0 .read ea n ea ∧ touchesPoison s0.poison ea n = false) ∧
    OperandsReady w0 e0 [(.v 26, 1)] [(.v 123, 1)] ∧ ∀ L, e0.mask.getLsbD L = true →
      let o := ((w0.lane L).v w0.alloc (.v 26)).toNat + (0#7).toInt * 4
      let ea := ((s0.recOf w0.gk).const + BitVec.ofInt 64 o).toNat
      o % 4 = 0 ∧ 0 ≤ o ∧ o + 4 ≤ (s0.recOf w0.gk).constsz.toNat ∧ Reaches s0 w0 .read ea 4 ea ∧
        touchesPoison s0.poison ea 4 = false := by
  refine ⟨runs0, calm0, performed0, ?_⟩
  simp only [ready_iff, lanes_iff, reaches_iff]
  decide +kernel

theorem witness_GlobalStoresWriteMemory : Runs s0 w0 e0 ∧ State.Calm s0 ∧ Warp.performed w0 ∧
    ∀ n ∈ [1, 2, 4, 8, 16], OperandsReady w0 e0 [(.v 120, if n ≤ 4 then 1 else n / 4), (.v 4, 2)] [] ∧
      ∀ L, e0.mask.getLsbD L = true →
        let ea := ((w0.lane L).vp w0.alloc (.v 4) + (0x3F#7).signExtend 64 * BitVec.ofNat 64 n).toNat
        Reaches s0 w0 .write ea n ea ∧ touchesPoison s0.poison ea n = false := by
  refine ⟨runs0, calm0, performed0, ?_⟩
  simp only [ready_iff, lanes_iff, reaches_iff]
  decide +kernel

theorem witness_PostedStoresAndPrefetches : Runs s0 w0 e0 ∧ State.Calm s0 ∧ Warp.performed w0 ∧
    (∀ n ∈ [1, 2, 4, 8, 16], OperandsReady w0 e0 [(.v 120, if n ≤ 4 then 1 else n / 4), (.v 4, 2)] [] ∧
      ∀ L, e0.mask.getLsbD L = true →
        let ea := ((w0.lane L).vp w0.alloc (.v 4) + (0x40#7).signExtend 64 * BitVec.ofNat 64 n).toNat
        Reaches s0 w0 .write ea n ea ∧ touchesPoison s0.poison ea n = false) ∧ OperandsReady w0 e0 [(.v 4, 2)] [] := by
  refine ⟨runs0, calm0, performed0, ?_⟩
  simp only [ready_iff, lanes_iff, reaches_iff]
  decide +kernel

/-- Array accesses: lane 0 at offset 0 and lane 1 at the last 16 bytes of the team's forty macros. -/
theorem witness_ArrayAccessesReachTheTeamsMacros : Runs s0 w0 e0 ∧ State.Calm s0 ∧ Warp.performed w0 ∧
    ∀ n ∈ [1, 2, 4, 8, 16],
      OperandsReady w0 e0 [(.v 7, 1)] [(.v 120, if n ≤ 4 then 1 else n / 4)] ∧
      OperandsReady w0 e0 [(.v 120, if n ≤ 4 then 1 else n / 4), (.v 7, 1)] [] ∧ ∀ L, e0.mask.getLsbD L = true →
        let o := ((w0.lane L).v w0.alloc (.v 7)).toNat + (0#7).toInt * n
        s0.team? w0.gk (w0.lane L).team.toNat = some m0 ∧ o % n = 0 ∧ 0 ≤ o ∧ o + n ≤ 12288 * m0.units ∧
        o.toNat / 12288 < m0.units ∧ touchesPoison (s0.core m0.die m0.core).arrPoison (12288 * (m0.p0 + o.toNat / 12288) + o.toNat % 12288) n = false ∧
        ((s0.core m0.die m0.core).units.getD (o.toNat / 12288) CimUnit.init).mode ≠ .compute ∧
        96 * m0.die + m0.core < s0.cores.length := by
  refine ⟨runs0, calm0, performed0, ?_⟩
  simp only [ready_iff, lanes_iff]
  decide +kernel

/-- Window accesses: lane 0 at offset 0 and lane 1 at the last 16 bytes. -/
theorem witness_PrivateWindowAccesses : Runs s0 w0 e0 ∧
    ∀ n ∈ [4, 8, 16], OperandsReady w0 e0 [(.v 6, 1)] [(.v 120, n / 4)] ∧ OperandsReady w0 e0 [(.v 120, n / 4), (.v 6, 1)] [] ∧
      ∀ L, e0.mask.getLsbD L = true →
        let o := ((w0.lane L).v w0.alloc (.v 6)).toNat + (0#7).toInt * n
        o % n = 0 ∧ 0 ≤ o ∧ o + n ≤ 64 * ((s0.recOf w0.gk).shape.toNat / 2 ^ 13 % 2 ^ 7) ∧
        touchesPoison (w0.lane L).winPoison o.toNat n = false := by
  refine ⟨runs0, ?_⟩
  simp only [ready_iff, lanes_iff]
  decide +kernel

/-- Atomics on words apart from one another. -/
theorem witness_AtomicsReadModifyWrite : Runs s0 w0 e0 ∧ State.Calm s0 ∧ Warp.performed w0 ∧ wmTen w0.wmode = 0 ∧
    ∀ n ∈ [4, 8, 16], OperandsReady w0 e0 [(.v 4, 2), (.v 8, n / 4), (.v 120, n / 4)] [(.v 120, n / 4)] ∧
      ∀ L, e0.mask.getLsbD L = true →
        let ea := ((w0.lane L).vp w0.alloc (.v 4)).toNat
        Reaches s0 w0 .atomic ea n ea ∧ touchesPoison s0.poison ea n = false ∧
        ∀ M, e0.mask.getLsbD M = true → M ≠ L →
          ((w0.lane M).vp w0.alloc (.v 4)).toNat + n ≤ ea ∨ ea + n ≤ ((w0.lane M).vp w0.alloc (.v 4)).toNat := by
  refine ⟨runs0, calm0, performed0, ?_⟩
  simp only [ready_iff, lanes_iff, reaches_iff]
  decide +kernel

/-- The small package's warp with lanes 0 and 1 alone alive. -/
def w2 : Warp := { w0 with lanes := w0.lanes.mapIdx (fun L l => if L < 2 then l else { l with life := .exited }) }

def arrive (w : Warp) (fn : Option Nat) (a d : VReg) (pair : Bool) (L : Nat) : Arrival :=
  { w := w.uid, lane := L, tid := w.index.toNat * w.width + L, fn := fn,
    val := if pair then (w.lane L).vp w.alloc a else ((w.lane L).v w.alloc a).zeroExtend 64, dst := d, pc := e0.pc, pri := e0.pri,
    insn := 0 }

/-- Other threads are awaited in the first package; in the second the entry's lanes are the last. -/
theorem witness_BarrierArrivals : Runs s0 w0 e0 ∧ State.Calm s0 ∧ Warp.performed w0 ∧ OperandsReady w0 e0 [(.v 122, 2)] [(.v 122, 2)] ∧
    w0.gathered = false ∧ w0.handler = false ∧ w0.checkBarm = w0 ∧ s0.team? w0.gk (w0.lane 0).team.toNat = some m0 ∧
    m0.st = .running ∧ m0.mode = .idle ∧ (w0 ∈ w0 :: s0.warps ∧ w0.gk = m0.gk ∧ 15 < w0.width ∧ (w0.lane 15).life = .live ∧
      ∀ r ∈ m0.arrivals ++ (lanesOf e0.mask).map (arrive w0 none .z .z false), r.lane ≠ 15) ∧
    Runs (world w2) w2 e0 ∧ State.Calm (world w2) ∧ Warp.performed w2 ∧ w2.checkBarm = w2 ∧
    (∀ u ∈ w2 :: (world w2).warps, ∀ L < u.width, (u.lane L).life = .live →
      ∃ r ∈ m0.arrivals ++ (lanesOf e0.mask).map (arrive w2 none .z .z false), r.w = u.uid ∧ r.lane = L) ∧
    ∀ r ∈ m0.arrivals ++ (lanesOf e0.mask).map (arrive w2 none .z .z false), r.fn = none := by
  refine ⟨runs0, calm0, performed0, ready0 _ _ (by decide +kernel), ?_⟩
  simp only [runs_iff, calm_iff, performed_iff]
  decide +kernel

theorem witness_BarrierReductions : Runs (world w2) w2 e0 ∧ State.Calm (world w2) ∧ Warp.performed w2 ∧
    OperandsReady w2 e0 [(.v 122, 2)] [(.v 122, 2)] ∧ w2.gathered = false ∧ w2.handler = false ∧ w2.checkBarm = w2 ∧
    (world w2).team? w2.gk (w2.lane 0).team.toNat = some m0 ∧ m0.st = .running ∧ m0.mode = .idle ∧
    let all := m0.arrivals ++ (lanesOf e0.mask).map (arrive w2 (some 0) (.v 122) (.v 122) true)
    (∀ u ∈ w2 :: (world w2).warps, ∀ L < u.width, (u.lane L).life = .live → ∃ r ∈ all, r.w = u.uid ∧ r.lane = L) ∧
    all.Pairwise (fun p q => ¬(p.w = q.w ∧ p.lane = q.lane)) ∧ (∀ r ∈ all, r.fn = some 0) ∧
    ∀ r ∈ all, (world w2).warp? r.w = some w2 ∧ r.lane < w2.lanes.length ∧ wmTen w2.wmode = 0 := by
  simp only [runs_iff, ready_iff, calm_iff, performed_iff]
  decide +kernel

/-- A first arrival that awaits lane 15, and a last one to an instance of lanes 0 to 2. -/
theorem witness_MaskBarrierParksAndReleases : Runs s0 w0 e0 ∧ State.Calm s0 ∧ Warp.performed w0 ∧ OperandsReady w0 e0 [(.v 12, 2)] [] ∧
    w0.handler = false ∧ (∀ L, e0.mask.getLsbD L = true → (w0.lane L).vp w0.alloc (.v 12) = 3 ∧ (3 : Mask).getLsbD L = true) ∧
    (3 : Mask) &&& ~~~fullMask w0.width = 0 ∧ w0.barm = none ∧
    (∀ L, (3 : Mask).getLsbD L = true → (0 ||| e0.mask).getLsbD L = true) ∧
    let w := { w0 with lanes := w0.lanes.map (fun l => { l with regs := l.regs.set 12 0x800B }), barm := some { ref := some 0x800B, arrived := 8 } }
    Runs (world w) w e0 ∧ State.Calm (world w) ∧ Warp.performed w ∧ OperandsReady w e0 [(.v 12, 2)] [] ∧
    (∀ L, e0.mask.getLsbD L = true → (w.lane L).vp w.alloc (.v 12) = 0x800B ∧ (0x800B : Mask).getLsbD L = true) ∧
    (0x800B : Mask) &&& ~~~fullMask w.width = 0 ∧ (0x800B : Mask).getLsbD 15 = true ∧ (8 ||| e0.mask).getLsbD 15 = false ∧
    (w.lane 15).life = .live := by
  refine ⟨runs0, calm0, performed0, ?_⟩
  simp only [runs_iff, ready_iff, calm_iff, performed_iff, lanes_iff]
  decide +kernel

/-- A posted store in flight of the warp's lane 1. -/
def p0 : Posted :=
  { uid := 1, w := 1, lane := 1, die := 0, core := 0, gk := 0, team := 0, pa := 0x50000, bytes := [1, 2, 3, 4], seen := [], scopes := [],
    fences := [] }

theorem witness_FencesPublish :
    let s := { s0 with posted := [p0, { p0 with uid := 2, lane := 5, pa := 0x50002 }] }
    Runs s w0 e0 ∧ Warp.performed w0 ∧ (∀ x ∈ s.warps, x.window = none ∧ x.anyTx = false) ∧
    s.posted.Pairwise (fun p q => p.uid ≠ q.uid) ∧ ∀ p ∈ s.posted, s.writeShut (p.pa / 128) = false ∧ s.behind p = false := by
  simp only [runs_iff, performed_iff]
  decide +kernel

/-- The small package's warp with a change to lane 1. -/
def lane1 (f : Lane → Lane) : Warp := { w0 with lanes := w0.lanes.mapIdx (fun L l => if L = 1 then f l else l) }

/-- Lane 0 alone at the txb, its contention count 3. -/
def w3 : Warp :=
  { w0 with front := [.at 0x10000 4 1, .at 0x10010 4 2],
            lanes := w0.lanes.mapIdx (fun L l => if L = 0 then { l with tx := { l.tx with addr := 0x10000, contention := 3 } } else l) }

def v1 : LaneSave :=
  { regs := regs0 1, preds := 1, xr := [0, 0, 1], fflags := 2, stack := [0x10020], win := [], winPoison := [], pri := 5, badRegs := [3], softRegs := [], stackPoison := [] }

/-- Lane 1 ACTIVE, with a read set and a write set. -/
def w4 (read : Byte) : Warp :=
  { lane1 (fun l => { l with tx := { l.tx with state := .active, addr := 0x10000, save := some v1, rset := [(0x50000, read)],
                                               wset := [(0x50008, 7), (0x50008, 8)], rlines := [2560], wlines := [2560], aborts := 7 } })
    with txLog := 15 }

theorem witness_TransactionsOpenAndReport :
    (Runs s0 w0 e0 ∧ State.Calm s0 ∧ Warp.performed w0 ∧
      ∀ L, e0.mask.getLsbD L = true → ¬((w0.lane L).tx.addr = e0.pc ∧ 3 ≤ (w0.lane L).tx.contention)) ∧
    (∀ o ∈ [none, some (5, 1)], let s := { world w3 with lu := { (world w3).lu with permit := o } }
      Runs s w3 (.at 0x10000 4 1) ∧ State.Calm s ∧ Warp.performed w3 ∧ (w3.lane 0).tx.addr = 0x10000 ∧
      3 ≤ (w3.lane 0).tx.contention ∧ s.lu.permitQ = [] ∧ o ≠ some (w3.uid, 0)) ∧ (1 : Mask) = laneBit 0 ∧
    Issues (world (w4 0)) (w4 0) e0 ∧ (w4 0).txLog < 16 ∧ (world (w4 0)).logUsed 0 0 + (w4 0).txLog < 128 ∧
    ∀ L, e0.mask.getLsbD L = true → ((w4 0).lane L).tx.state = .active → ((w4 0).lane L).tx.serial = true →
      ((w4 0).lane L).tx.insns < 32 := by
  simp only [runs_iff, issues_iff, calm_iff, performed_iff, lanes_iff]
  decide +kernel

/-- A lane whose read set still stands, and one whose read set does not. -/
theorem witness_TransactionsCommitAndAbort : ∀ r ∈ [0, 1], let w := w4 (BitVec.ofNat 8 r)
    Issues (world w) w e0 ∧ State.Calm (world w) ∧ Warp.performed w ∧ e0.mask.getLsbD 1 = true ∧
    (∀ M < w.lanes.length, (w.lane M).tx.state = .active ↔ M = 1) ∧ (w.lane 1).tx.save = some v1 ∧ (w.lane 1).tx.serial = false ∧
    w.handler = false ∧ w.held = [] ∧ w.txLog ≤ 16 ∧ (world w).logUsed w.die w.core + w.txLog ≤ 128 ∧ (w.lane 1).tx.aborts ≤ 7 ∧
    ((∀ c ∈ (w.lane 1).tx.rset, Memory.read (world w).mem c.1 = c.2) ↔ r = 0) ∧ OperandsReady w e0 [(.v 2, 1)] [] := by
  simp only [issues_iff, calm_iff, performed_iff, ready_iff]
  decide +kernel

def record0 : SpawnRec := { gk := 0, entry := 0, team := 0, sid := 1, root := 0, join := none, payload := List.replicate 8 0 }

/-- A Cooper with room for two records, and a full one of a grid without a ring. -/
def crowded (n : Nat) (g : Grid) : State :=
  { s0 with cores := { core0 with cooper := { core0.cooper with store := List.replicate n record0 } } :: List.replicate 383 Core.init,
            grids := [g] }

theorem witness_SpawnsOfferRecords :
    let s := crowded 1022 g0
    let f := crowded 1024 { g0 with rcd := { rec0 with ring := 0, ringsz := 0 } }
    (Runs s w0 e0 ∧ State.Calm s ∧ Warp.performed w0 ∧ OperandsReady w0 e0 [(.v 16, 8), (.v 24, 2)] [] ∧
      (s.recOf w0.gk).spawnEntry 1 ≠ 0 ∧ 96 * w0.die + w0.core < s.cores.length ∧
      (∀ L, e0.mask.getLsbD L = true → Reaches s w0 .atomic ((w0.lane L).vp w0.alloc (.v 24)).toNat 8 0x51000 ∧
        touchesPoison s.poison 0x51000 8 = false) ∧ 0x51000 % 8 = 0 ∧
      (s.core 0 0).cooper.parts.Pairwise (fun p q => ¬(p.gk = q.gk ∧ p.entry = q.entry)) ∧
      ((s.core 0 0).cooper.store ++ (s.core 0 0).cooper.parts.flatMap Partial.held).length + (lanesOf e0.mask).length = 1024 ∧
      (s.grid? w0.gk).all (fun g => !g.killed) = true) ∧
    Runs f w0 e0 ∧ State.Calm f ∧ OperandsReady w0 e0 [(.v 16, 8), (.z, 2)] [] ∧ (f.recOf w0.gk).spawnEntry 0 ≠ 0 ∧
      1024 ≤ (f.core 0 0).cooper.store.length ∧ (f.grid? w0.gk).all (fun g => !g.killed) = true ∧ f.ringRoom 0 0 = false := by
  simp only [runs_iff, calm_iff, performed_iff, ready_iff, lanes_iff, reaches_iff]
  decide +kernel

/-- A launch at depth 9 with one place left in the queue, at depth 10, with the queue full, or to be by a push on its way, and by a warp that is not the first. -/
theorem witness_LaunchesQueueAGrid : ∀ x ∈ [(9, 1023, 0, 0), (10, 0, 0, 0), (9, 1024, 0, 0), (9, 1023, 0, 1), (9, 0, 1, 0)],
    let w := { w0 with index := BitVec.ofNat 32 x.2.2.1 }
    let s := { world w with
      grids := [{ g0 with rcd := { rec0 with sched := BitVec.ofNat 32 (x.1 * 2 ^ 20) } }]
      lu := { s0.lu with queues := List.replicate 64 { Queue.init with fifo := List.replicate x.2.1 7 }, pushes := List.replicate x.2.2.2 (0, 0x50000) } }
    Runs s w e0 ∧ State.Calm s ∧ Warp.performed w ∧ OperandsReady w e0 [(.v 4, 2)] [] ∧ w.gathered = false ∧
    (s.recOf w.gk).depth = x.1 ∧ (s.lu.queues.getD 0 Queue.init).fifo.length = x.2.1 ∧ (s.lu.pushes.filter (fun y => y.1 == 0)).length = x.2.2.2 ∧
    (LaunchRec.ofBytes (fun o => Memory.read s.mem (0x50000 + o))).queue = 0 ∧
    Reaches s w .read ((w.lane (lowestLane e0.mask)).vp w.alloc (.v 4)).toNat 256 0x50000 ∧ touchesPoison s.poison 0x50000 256 = false := by
  simp only [runs_iff, calm_iff, performed_iff, ready_iff, reaches_iff]
  decide +kernel

theorem witness_JoinsAndWaitsPark : Runs s0 w0 e0 ∧ State.Calm s0 ∧ Warp.performed w0 ∧ OperandsReady w0 e0 [(.v 4, 2)] [] ∧
    OperandsReady w0 e0 [(.v 123, 1)] [] ∧ (∀ n ∈ [4, 8], ∀ L, e0.mask.getLsbD L = true →
      Reaches s0 w0 .read ((w0.lane L).vp w0.alloc (.v 4)).toNat n (0x50000 + 256 * L) ∧ touchesPoison s0.poison (0x50000 + 256 * L) n = false) ∧
    w0.die < 4 ∧ w0.core < 96 := by
  refine ⟨runs0, calm0, performed0, ?_⟩
  simp only [ready_iff, lanes_iff, reaches_iff]
  decide +kernel

/-- The warp with four words from s8. -/
def group8 (cb : List Word) : Warp := { w0 with sregs := w0.sregs.mapIdx (fun i v => if 8 ≤ i ∧ i < 12 then cb.getD (i - 8) 0 else v) }

/-- A smallest block of each function, and one that ends at the end of its memory. -/
theorem witness_CopiesStart :
    ∀ x ∈ ([(.g2a, [0x50000, 0, 0, 0]), (.g2a, [0x50000, 0, 491488, 0]), (.g2ax, [0x50000, 0, 63, 1 * 2 ^ 6 + 1 * 2 ^ 12]),
        (.g2rx, [0x50000, 0, 383, 2 * 2 ^ 6]), (.a2g, [0x50000, 0, 0, 0]), (.q2g, [0x50000, 0, 383, 2 * 2 ^ 19 + 47 * 2 ^ 9]),
        (.g2g, [0x50000, 0, 0x60000, 0]), (.rem, [0xA00, 0, 0, 0]), (.scld, [0x50000, 0, 8191, 0]), (.drain, [0x50000, 0, 383, 0]),
        (.drainAddF32, [0x50000, 0, 319 * 2 ^ 9, 0]), (.drainAddI32, [0x50000, 0, 0, 383 + 319 * 2 ^ 9]), (.drainAddI64, [0x50008, 0, 0, 0])]
        : List (CopyFn × List Word)), let w := group8 x.2
      Runs (world w) w e0 ∧ State.Calm (world w) ∧ Warp.performed w ∧ 96 * w.die + w.core < (world w).cores.length ∧
      (world w).team? w.gk (w.lane 0).team.toNat = some m0 ∧ OwnsMatrix (world w) w m0 ∧ m0.core = w.core ∧
      ((world w).core w.die w.core).queueUsed < 8 ∧ (List.range 4).map (fun i => w.sv (8 + i)) = x.2 ∧ cbIllegal x.1 x.2 = false ∧
      cbMisaligned x.1 x.2 = none ∧ m0.cbOutside x.1 x.2 = false ∧ w.tags.getD 63 .free ≠ .busy ∧
      ((world w).core w.die w.core).copies.length < 64 := by
  simp only [runs_iff, calm_iff, performed_iff, owns_iff]
  decide +kernel

/-- A mask of tags 0 and 63, the first DONE and the other BUSY, and one of none. -/
theorem witness_TagInstructionsFollowTheTags :
    let w := { group8 [1, 0x80000000, 0, 0] with tags := (w0.tags.set 0 (.done 3 64 9)).set 63 .busy }
    Runs (world w) w e0 ∧ w.tags.length = 64 ∧ (w.sv 9 ++ w.sv 8).getLsbD 63 = true ∧ w.tags.getD 63 .free = .busy ∧
    (w.sv 9 ++ w.sv 8).getLsbD 0 = true ∧ w.tags.getD 0 .free = .done 3 64 9 ∧ w.sv 11 ++ w.sv 10 = (0 : Mask) ∧
    w.tags.getD 62 .free = .free := by
  simp only [runs_iff]
  decide +kernel

/-- The package with every macro of the team in one residence and one more warp of the team or none. -/
def modeWorld (r : Resid) (others : List Warp) : State :=
  { s0 with cores := { core0 with units := core0.units.map (fun u => { u with mode := r }) } :: List.replicate 383 Core.init,
            warps := others }

theorem witness_ModeInstructionsArrive :
    (∀ r ∈ [Resid.storage, .compute], ∀ ws ∈ [[], [{ w0 with uid := 5, ctx := 31, index := 1, inRun := false }]],
      let s := modeWorld r ws
      Runs s w0 e0 ∧ State.Calm s ∧ OwnsMatrix s w0 m0 ∧ s.barDue m0 = false ∧ (∀ y ∈ s.macros m0, y.2.2.mode = r) ∧ s.macros m0 ≠ [] ∧
      ∀ u ∈ ws, u.gk = m0.gk ∧ u.gathered = false ∧ (u.lane 0).team.toNat = m0.idx ∧ (∃ l ∈ u.lanes, l.life = .live) ∧ u.uid ≠ w0.uid) ∧
    Warp.performed w0 ∧ w0.handler = false ∧ w0.checkBarm = w0 ∧ m0.st = .running ∧ m0.mode = .idle ∧
    let m := { m0 with mode := .gathering [(5, .c, 0xFFFF, 0x10000, 4, 0)] }
    let s := { modeWorld .storage [{ w0 with uid := 5, ctx := 31, index := 1, inRun := false }] with teams := [m] }
    Runs s w0 e0 ∧ State.Calm s ∧ OwnsMatrix s w0 m ∧ s.barDue m = false ∧ m.st = .running := by
  simp only [runs_iff, calm_iff, performed_iff, owns_iff]
  decide +kernel

/-- The words of two groups from s8 and s12. -/
def groups (ga gc : List Word) : Warp :=
  { w0 with sregs := w0.sregs.mapIdx (fun i v => if 8 ≤ i ∧ i < 12 then ga.getD (i - 8) 0 else if 12 ≤ i ∧ i < 16 then gc.getD (i - 12) 0 else v) }

theorem witness_MatrixOperationsOnTheAccumulator :
    (∀ rep ∈ [0, 1, 2, 4], let w := groups [0, 340, 383, 63] [0, 7, 319, 0x11]
      let s := { modeWorld .compute [] with cur := some w }
      let o := mopOf s.nextUid w.uid w.gk 0 rep true (w.group 8) (w.group 12)
      Runs s w e0 ∧ OwnsMatrix s w m0 ∧ m0.core = w.core ∧ 96 * w.die + w.core < s.cores.length ∧
      mmulIllegal o (w.group 8) (w.group 12) = false ∧ o.outside m0 = false ∧
      (∀ y ∈ m0.tileMacros o.seg0 o.kb o.n0 o.n (fmtWidth o.bfmt), ((s.core m0.die y.1).units.getD y.2 CimUnit.init).mode = .compute) ∧
      w.tags.getD o.tag .free ≠ .busy ∧ (s.core w.die w.core).queueUsed < 8) ∧
    let w := groups [0, 0, 383 + 319 * 2 ^ 9, 0] [383, 318, 0, 0]
    Runs (world w) w e0 ∧ OwnsMatrix (world w) w m0 ∧ m0.core = w.core ∧ m0.die = w.die ∧ 96 * w.die + w.core + 1 < (world w).cores.length ∧
      ((world w).core w.die w.core).queueUsed < 8 ∧ cbF (w.group 8) 2 31 19 = 0 ∧ cbF (w.group 8) 3 31 19 = 0 ∧
      m0.cbOutside .drain (w.group 8) = false ∧ (∀ wr ∈ [true, false], (world w).blocked (world w).nextUid (m0.accZones 383 1 wr) = false) ∧
      (w.sv 12).toNat < 384 ∧ (∀ L, e0.mask.getLsbD L = true → (w.sv 13).toNat + L < m0.accCols ∧
        (world w).accBad m0 383 ((w.sv 13).toNat + L) = false) ∧
      OperandsReady w e0 [] [(.v 123, 1)] ∧ OperandsReady w e0 [(.v 123, 1)] [] := by
  simp only [runs_iff, owns_iff, ready_iff, lanes_iff]
  decide +kernel

/-- Words of wmode with a reserved bit and with an unassigned rounding mode. -/
theorem witness_TrapsAreTaken : Runs s0 w0 e0 ∧ State.Calm s0 ∧ Warp.performed w0 ∧ Handles s0 w0 0x60000 ∧
    OperandsReady w0 e0 [] [(.v 122, 2)] ∧
    ∀ v ∈ [1024, 5], let w := group8 [BitVec.ofNat 32 v, 0, 0, 0]
      Runs (world w) w e0 ∧ State.Calm (world w) ∧ Warp.performed w ∧ Handles (world w) w 0x60000 ∧
      (2 ^ 10 ≤ (w.sv 8).toNat ∨ 4 < (w.sv 8).toNat % 8) := by
  refine ⟨runs0, calm0, performed0, handles0, ready0 _ _ (by decide +kernel), ?_⟩
  simp only [runs_iff, calm_iff, performed_iff, handles_iff]
  decide +kernel

/-- The warp in its trap handler, its record at 0x60000. -/
def w5 : Warp := { w0 with handler := true, trec := 0x60000, held := [.at 0x10040 4 0xC] }

theorem witness_EretResumes : Runs (world w5) w5 e0 ∧ State.Calm (world w5) ∧ Warp.performed w5 ∧ w5.handler = true ∧
    Reaches (world w5) w5 .read w5.trec.toNat 64 0x60000 ∧ touchesPoison (world w5).poison 0x60000 64 = false ∧
    (BitVec.ofNat 64 (Memory.value (world w5).mem 0x60020 8)).toNat % 2 = 0 ∧
    (BitVec.ofNat 64 (Memory.value (world w5).mem 0x60020 8)).toNat < 2 ^ 55 := by
  simp only [runs_iff, calm_iff, performed_iff, reaches_iff]
  decide +kernel

theorem witness_SpecialRegisterReads : Runs s0 w0 e0 ∧ OperandsReady w0 e0 [] [(.v 122, 2)] ∧ OperandsReady w0 e0 [] [(.v 123, 1)] ∧
    Runs (world w5) w5 e0 ∧ OperandsReady w5 e0 [] [(.v 122, 2)] ∧ w5.handler = true := by
  simp only [runs_iff, ready_iff]
  decide +kernel

/-- Words of wmode at the end of what may be written, and the warp in its handler. -/
theorem witness_SpecialRegisterWrites : Runs s0 w0 e0 ∧ OperandsReady w0 e0 [(.v 123, 1)] [] ∧
    Runs (world (group8 [1020, 0, 0, 0])) (group8 [1020, 0, 0, 0]) e0 ∧ ((group8 [1020, 0, 0, 0]).sv 8).toNat < 2 ^ 10 ∧
    ((group8 [1020, 0, 0, 0]).sv 8).toNat % 8 ≤ 4 ∧ Runs (world w5) w5 e0 ∧ w5.handler = true := by
  simp only [runs_iff, ready_iff]
  decide +kernel

/-- TEN set, and operands whose sum, difference and product are inexact in lane 1 and exact in lane 0. -/
def w6 : Warp :=
  { w0 with wmode := 0x3E0, lanes := w0.lanes.mapIdx (fun L l => if L = 1 then
      { l with regs := (l.regs.set 2 0x3F800001).set 3 0x30800001 } else { l with regs := (l.regs.set 2 0x3F800000).set 3 0x3F800000 }) }

/-- Lanes 0 and 1 whose x0 names v30 and v31. -/
def w7 : Warp := lane1 (fun l => { l with xr := [31, 0, 123] })

/-- A direct operand, a predicate and a scalar register that are pending; an indexed operand that is pending in lane 1 alone. -/
theorem witness_FloatingAndHazardTraps : (Runs (world w6) w6 e0 ∧ State.Calm (world w6) ∧ Warp.performed w6 ∧
    Handles (world w6) w6 0x60000 ∧ OperandsReady w6 e0 [(.v 2, 1), (.v 3, 1)] [(.v 123, 1)] ∧
    ∀ f ∈ [f32.add, f32.sub, f32.mul], maskOf ((lanesOf e0.mask).filter (fun L => e0.mask.getLsbD L &&
      (f (w6.wmode.getLsbD 4) (w6.wmode.getLsbD 3) ((w6.lane L).v w6.alloc (.v 2)).toNat ((w6.lane L).v w6.alloc (.v 3)).toNat).2 &&&
        w6.wmode.extractLsb' 5 5 != 0)) = 2) ∧
    Runs (world w7) w7 e0 ∧ State.Calm (world w7) ∧ Warp.performed w7 ∧ Handles (world w7) w7 0x60000 ∧
    (∀ x ∈ ([([(.v 122, 2), (.v 3, 2), (.z, 2)], []), ([(.v 3, 1), (.ix 0, 1)], [0xC0]), ([], [0xC6]), ([], [0x80, 0x81, 0xBF])]
      : List (List (VReg × Nat) × List Nat)), OperandsReady { w7 with pend := [4, 0xBF, 0xC0, 0xC6] } e0 [] x.1) ∧
    (let w := { w7 with pend := [31] };
      OperandsReady w e0 [(.ix 0, 1), (.v 3, 1)] [(.v 2, 1)] ∧ (3 : Nat) ∉ w.pend ∧ (2 : Nat) ∉ w.pend ∧
      (w.lane 0).xr.getD 0 0 = 30 ∧ (w.lane 1).xr.getD 0 0 = 31) := by
  simp only [runs_iff, calm_iff, performed_iff, handles_iff, ready_iff, List.forall_mem_cons]
  decide +kernel

/-- The warp at the first byte that the tables do not map, and at 2^55. -/
theorem witness_FetchFaultsParkOrTrap : ∀ pc ∈ [2 ^ 29, 2 ^ 55],
    let e : FEntry := .at (BitVec.ofNat 64 pc) 4 3
    let w := { w0 with front := [e] }
    Runs (world w) w e ∧ State.Calm (world w) ∧ Warp.performed w ∧ e.pc.toNat = pc ∧ Handles (world w) w 0x60000 ∧
    (pc < 2 ^ 55 → ((world w).core w.die w.core).tlb.all (fun x => !x.covers ((world w).asidOf w.gk) e.pc.toNat) = true ∧
      ((world w).die w.die).l2tlb.all (fun x => !x.covers ((world w).asidOf w.gk) e.pc.toNat) = true ∧
      walk (world w) ((world w).asidOf w.gk) e.pc.toNat = .fault false) := by
  simp only [runs_iff, calm_iff, performed_iff, handles_iff]
  decide +kernel

def trap0 : HeldTrap :=
  { cause := 0xFF, detail := 1, addr := 0x50001, mask := 0xC, pc := 0x10020, pri := 3, insn := 7, len := 4, double := false }

/-- Two warps of slot 3, ready. -/
def s7 : State :=
  { s0 with cur := none, cores := List.replicate 384 Core.init,
            warps := [{ w0 with uid := 5, ctx := 31, inRun := false, lastIssue := some 9 }, { w0 with ctx := 3, inRun := false, lastIssue := some 9 }] }

/-- Two ready warps of slot 3; a warp at its 24th instruction; one with a result pending, or a load; one whose cautious mode is over; one with a
held trap. -/
theorem witness_RunsBeginAndEnd :
    (s7.cur = none ∧ s7.warps.Pairwise (fun x y => x.uid ≠ y.uid) ∧ 96 * 0 + 0 < s7.cores.length ∧ (s7.core 0 0).slots.length = 4 ∧
      (s7.core 0 0).slots.getD 3 none = none ∧ ∀ a ∈ s7.warps, a.die = 0 ∧ a.core = 0 ∧ a.ctx % 4 = 3 ∧ a.ready = true) ∧
    (let w := { w0 with count := 24 };
      Between (still w) w ∧ w.inRun = true ∧ 24 ≤ w.count ∧ w.heldTraps = [] ∧ w.failing = false) ∧
    (let w := { w0 with inRun := false, pend := [3, 4], cautious := 1 };
      Between (still w) w ∧ w.window = none ∧ w.sent = [] ∧ w.loads = [] ∧ w.cautious = 1) ∧
    (let w := { w0 with inRun := false, pend := [3], loads := [⟨1, 0x50000, 4, .regs 3 false, false, 0⟩] };
      Between (still w) w ∧ State.Calm (still w) ∧ w.window = none ∧ w.sent = [] ∧ w.lateFlags = [] ∧ 3 < 3 + regsOf 4) ∧
    let w := { w0 with inRun := false, heldTraps := [trap0] }
    Between (still w) w ∧ State.Calm (still w) ∧ Warp.performed w ∧ Handles (still w) w 0x60000 ∧ w.inRun = false ∧ w.failing = false ∧ w.stopped = false ∧
      trap0.double = false ∧ trap0.cause < 256 ∧ dropLanes w.front trap0.mask = w.front := by
  simp only [between_iff, calm_iff, performed_iff, handles_iff]
  decide +kernel

/-- Words at 0x50000, which are 0, and at 0x40000, which are not; a lane at a txb and a queue whose first request is void. -/
theorem witness_WaitsEnd :
    (∀ x ∈ [0x50000, 0x40000], ∀ n ∈ [4, 8], let w := { w0 with
        wait := some (if n = 8 then .joinw [(0, BitVec.ofNat 64 x)] 0 else .waitw [(1, BitVec.ofNat 64 x, 0x20001), (0, BitVec.ofNat 64 x, 0)]) }
      Between (still w) w ∧ State.Calm (still w) ∧ Warp.performed w ∧ (w.lane 0).life = .live ∧ (w.lane 1).life = .live ∧
      Reaches (still w) w .read x n x ∧ touchesPoison (still w).poison x n = false ∧
      Memory.value (still w).mem x n = if x = 0x40000 then 0x20001 else 0) ∧
    ∀ u ∈ [1, 5], let w := { w0 with front := [{ e0 with park := .serial }] }
      let s := { still w with lu := { (still w).lu with permitQ := [(u, 0), (1, 1)] } }
      s.lu.permit = none ∧ Between s w ∧ (∃ e ∈ w.front, e.park = .serial ∧ e.mask.getLsbD 0 = true) ∧ (s.warp? 5).isNone = true := by
  simp only [between_iff, calm_iff, performed_iff, reaches_iff]
  decide +kernel

/-- A window with two stores held and a later write of the log, the fourth rollback at one address in a row. -/
def v0 : Window :=
  { save := { front := [e0], lanes := w0.lanes, sregs := w0.sregs, wmode := 0, tags := w0.tags, pend := [], heldTraps := [], pc := 0x10000,
              seq := 0 }
    points := [], log := [{ item := .reg 3, seq := 1, bad := false }]
    buf := [{ lane := 0, space := .global, addr := 0x50000, bytes := [1, 2, 3, 4], posted := false, seq := 1 },
            { lane := 1, space := .global, addr := 0x50002, bytes := [5], posted := false, seq := 2 }]
    ents := [(1, 1), (2, 1)], watch := [{ line := 9, seq := 0, lanes := 3, pages := [0] }], copies := [], seq := 3, trapped := false }

/-- The window as it is, and with a later shadow point that both stores precede. -/
theorem witness_WindowsCommitAndRollBack : ∀ ps ∈ [[], [{ v0.save with seq := 3 }]],
    let v := { v0 with points := ps }
    let w := { w0 with window := some v, rbAddr := 0x10000, rbCount := 3, loads := [⟨1, 0x50010, 4, .regs 3 false, true, 2⟩] }
    Between (still w) w ∧ w.window = some v ∧ w.failing = false ∧ (∀ x ∈ v.log, x.bad = false) ∧ w.sent = [] ∧ w.heldTraps = [] ∧
    w.stopped = false ∧ (∀ l ∈ w.loads, l.spec = true) ∧ (∀ x ∈ v.buf, x.posted = false ∧ x.spawn = none ∧ x.seq < 3) := by
  simp only [between_iff]
  decide +kernel

/-- A record of a fence.t of lane 1 that the posted store precedes. -/
def narrow0 : Narrow := { w := 1, lane := 1, die := 0, core := 0, gk := 0, team := 0, scope := 1, upto := 1 }

theorem witness_PostedStoresBecomeVisible :
    (let s := { still w0 with posted := [p0, { p0 with uid := 2, pa := 0x50004 }] };
      s.posted = [p0] ++ { p0 with uid := 2, pa := 0x50004 } :: [] ∧ s.posted.Pairwise (fun x y => x.uid ≠ y.uid) ∧
      (∀ x ∈ s.allWarps, x.window = none ∧ x.anyTx = false) ∧ (∀ x ∈ s.lines, x.isOpen = true ∧ x.hostFree = true ∧ x.queue = []) ∧
      (∀ d ∈ s.dies, ∀ x ∈ d.slices, x.retry = []) ∧ p0.pa + p0.bytes.length ≤ 0x50004) ∧
    let s := { still w0 with posted := [{ p0 with fences := [1] }], lines := [{ LineRec.init 2560 with narrow := [narrow0] }] }
    (s.line 2560).narrow = [narrow0] ∧ (∀ x ∈ s.lines, x.isOpen = true ∧ x.hostFree = true) ∧
      s.within .hdie 1 0 0 0 0 (s.homeDie (2560 * 128)) = false ∧ s.within (.thread 1 3) 1 0 0 0 0 (s.homeDie (2560 * 128)) = true ∧
      (s.line 9).narrow = [] := by
  decide +kernel

/-- A partial warp that waits for a joiner, and one that is due, with a place on the core. -/
theorem witness_CooperGathersAndReleases :
    let x : Partial := { gk := 0, entry := 1, recs := [some record0, none, some record0], t0 := 5, join0 := some 4, due := none }
    let c := { core0 with cooper := { core0.cooper with parts := [x, { x with entry := 0, due := some 0 }] } }
    let s := { still w0 with cores := c :: List.replicate 383 Core.init }
    96 * 0 + 0 < s.cores.length ∧ 0 < s.dies.length ∧ (s.core 0 0).cooper.parts[0]? = some x ∧ x.due = none ∧ x.join0 = some 4 ∧
    s.firstDue 0 0 = some ({ x with entry := 0, due := some 0 }, 0) ∧ s.releaseOpen 0 0 = true ∧
    (seatOne (s.seats 0 0) (s.recOf 0)).isSome = true := by
  decide +kernel

/-- The bytes that a slot's number names. -/
def slotBytes (n seed : Nat) : List Byte := (List.range n).map (Config.freeByte seed)

/-- A core of `n` records, a ring of 512 slots of which `m` hold a record as it was written, and the warp `w`. -/
def ringWorld (n m : Nat) (w : Warp) : State :=
  { still w with
    mem := Memory.writes (still w).mem 0x200000 (slotBytes 64 7)
    cores := { core0 with cooper := { core0.cooper with store := List.replicate n record0 } } :: List.replicate 383 Core.init
    grids := [{ g0 with rcd := { rec0 with ringsz := 0x8000 } }]
    dies := { Die.init with rings := [{ gk := 0, tail := m, slots := (List.range m).map (fun i => { rcd := record0, pos := i, seed := 7 }) }] } :: List.replicate 3 Die.init }

theorem pieces_lt (a n : Nat) (p : Nat × Nat) (h : p ∈ pieces a n) : p.1 < a + n := by
  unfold pieces granules at h
  split at h
  · simp at h
  · simp only [List.mem_map, List.mem_range] at h
    obtain ⟨g, ⟨j, hj, rfl⟩, rfl⟩ := h
    simp only
    omega

/-- Every byte below 512 MiB is reached. -/
theorem reaches_low (s : State) (d k : Nat) (acc : Access) (ht : (s.core d k).tlb = [page0]) (hs : s.sku = .k4) (ea : Nat) (he : ea < 2 ^ 29) :
    ReachesAt s d k 0 acc ea 1 ea := by
  have h29 : ea / 536870912 = 0 := Nat.div_eq_of_lt he
  refine ⟨Nat.mod_one _, by omega, ⟨page0, ?_, ?_, rfl, ?_⟩, ?_⟩
  · rw [ht]
    have : page0.covers 0 ea = true := by
      simp only [TlbEntry.covers, page0, bits]
      simp [Nat.shiftRight_eq_div_pow, h29]
    simp [this]
  · simp only [TlbEntry.pa, page0, if_true]
    omega
  · cases acc <;> rfl
  · have : ea < s.sku.hbmGiB * gib := by
      rw [hs]
      have : 2 ^ 29 ≤ Config.Sku.hbmGiB .k4 * gib := by decide
      omega
    simp [State.populated, this]

theorem cooper_low (s : State) (d k gk a n : Nat) (acc : Access) (ht : (s.core d k).tlb = [page0]) (hs : s.sku = .k4)
    (hk : s.asidOf gk = 0) (ha : (s.core d k).cooper.answers = []) (hn : a + n ≤ 2 ^ 29) : CooperReaches s d k gk acc a n :=
  ⟨ha, fun p hp => ⟨p.1, hk ▸ reaches_low s d k acc ht hs p.1 (Nat.lt_of_lt_of_le (pieces_lt a n p hp) hn)⟩⟩

/-- A fold that takes each piece as it is. -/
theorem foldl_ok (f : Reached × State → Nat × Nat → Reached × State) (s : State) (l : List (Nat × Nat))
    (h : ∀ acc, ∀ p ∈ l, f (.ok acc, s) p = (.ok (acc ++ [p]), s)) (acc : List (Nat × Nat)) :
    l.foldl f (.ok acc, s) = (.ok (acc ++ l), s) := by
  induction l generalizing acc with
  | nil => simp
  | cons p t ih =>
    rw [List.foldl_cons, h acc p (List.mem_cons_self ..), ih (fun a q hq => h a q (List.mem_cons_of_mem _ hq))]
    simp

/-- Those bytes are translated where they are. -/
theorem coopReach_low (s : State) (d k gk a n : Nat) (acc : Access) (ht : (s.core d k).tlb = [page0]) (hs : s.sku = .k4)
    (hk : s.asidOf gk = 0) (ha : (s.core d k).cooper.answers = []) (hn : a + n ≤ 2 ^ 29) :
    s.coopReach d k gk a n acc = (.ok (pieces a n), s) := by
  unfold State.coopReach
  refine (foldl_ok _ s _ (fun l p hp => ?_) []).trans (by simp)
  have hp := Nat.lt_of_lt_of_le (pieces_lt a n p hp) hn
  obtain ⟨_, _, ⟨x, hx, hpa, hio, href⟩, hpop⟩ := reaches_low s d k acc ht hs p.1 hp
  have hb : bits p.1 63 55 = 0 := by
    simp only [bits, Nat.shiftRight_eq_div_pow]
    rw [Nat.div_eq_of_lt (by omega)]
    rfl
  have htr : s.translate d k 0 p.1 = (.ok p.1 x, s) := by
    simp [State.translate, hx, State.xlatDone, hpa, hpop]
  simp [hk, hb, show ¬ 18446744073709551616 ≤ p.1 by omega, ha, htr, hio, href]

/-- The bytes of whole granules, piece by piece, are the bytes in order. -/
theorem bytes_of_pieces (rd : Nat → Byte) (a b : Nat) :
    (pieces (8 * a) (8 * b)).flatMap (fun p => bytesAt rd p.1 p.2) = (List.range (8 * b)).map (fun i => rd (8 * a + i)) := by
  have hg : pieces (8 * a) (8 * b) = (List.range b).map (fun j => (8 * (a + j), 8)) := by
    unfold pieces granules
    split
    · have : b = 0 := by omega
      subst this
      rfl
    · rw [show (8 * a + 8 * b - 1) / 8 + 1 - 8 * a / 8 = b by omega, List.map_map]
      refine List.map_congr_left (fun j hj => ?_)
      have := List.mem_range.1 hj
      simp only [Function.comp, Prod.mk.injEq]
      omega
  rw [hg]
  clear hg
  induction b with
  | zero => rfl
  | succ b ih =>
    rw [List.range_succ, List.map_append, List.flatMap_append, ih, show 8 * (b + 1) = 8 * b + 8 by omega, List.range_add, List.map_append]
    congr 1
    simp [bytesAt, List.range_succ, Nat.mul_add, Nat.add_assoc]

/-- A slot of whole granules that holds what its number names stands as it was written. -/
theorem slot_kept (s : State) (d k gk a b seed : Nat) (m : List Host.Cell) (ht : (s.core d k).tlb = [page0]) (hs : s.sku = .k4)
    (hk : s.asidOf gk = 0) (ha : (s.core d k).cooper.answers = []) (hn : 8 * a + 8 * b ≤ 2 ^ 29) (hp : s.poison = [])
    (hm : s.mem = Memory.writes m (8 * a) (slotBytes (8 * b) seed)) : SlotKept s d k gk (8 * a) (8 * b) seed := by
  intro pas h
  rw [coopReach_low s d k gk (8 * a) (8 * b) .read ht hs hk ha hn] at h
  cases h
  refine ⟨fun p _ => by simp [State.poisoned, touchesPoison, hp], ?_⟩
  have : (pieces (8 * a) (8 * b)).flatMap (fun p => bytesAt (Memory.read s.mem) p.1 p.2) = slotBytes (8 * b) seed := by
    rw [bytes_of_pieces, slotBytes]
    refine List.map_congr_left (fun i hi => ?_)
    have hi := List.mem_range.1 hi
    rw [hm, Memory.read_writes, if_pos (by simp [slotBytes]; omega)]
    simp [slotBytes, List.getD_eq_getElem?_getD, hi]
  rw [this, slotBytes]
  simp

/-- The registers of the core in use, a due partial warp, and a warp that has waited since cycle 3; a yielded warp that waits no more. -/
def yieldWarp : Warp := { w0 with inRun := false, wait := some (.joinw [(0, 0x50000)] 3) }

def yieldWorld : State :=
  let x : Partial := { gk := 0, entry := 0, recs := [some record0], t0 := 5, join0 := some 5, due := some 0 }
  { still w0 with
    warps := yieldWarp :: (List.range 32).map (fun i => { w0 with uid := 10 + i, ctx := 1 + i, inRun := false })
    cores := { core0 with slots := [none, none, none, none], cooper := { core0.cooper with parts := [x] } } :: List.replicate 383 Core.init }

def backWarp : Warp := { w0 with inRun := false, yielded := true, slotSeed := 7 }

def backWorld : State :=
  let s := still backWarp
  { s with mem := Memory.writes s.mem (8 * 0x120000) (slotBytes (8 * 6144) 7) }

theorem witness_OverflowRingsAndYields :
    (let s := ringWorld 897 256 w0;
      s.cur = none ∧ s.snooped = none ∧ State.Calm s ∧ 96 * 0 + 0 < s.cores.length ∧ 0 < s.dies.length ∧
      (s.dies.getD 0 Die.init).rings.Pairwise (fun x y => x.gk ≠ y.gk) ∧ (s.core 0 0).cooper.store.length = 897 ∧
      (s.core 0 0).cooper.parts = [] ∧ (∀ y ∈ (s.core 0 0).cooper.store, y.gk = 0) ∧ 0 ∉ (s.die 0).deadRings ∧
      ((s.die 0).ringOf 0).used + 256 ≤ (s.recOf 0).ringsz.toNat / 64) ∧
    (let s := ringWorld 255 1 w0;
      State.Calm s ∧ (s.core 0 0).cooper.store.length < 256 ∧ s.nextRing 0 0 = some 0 ∧ (s.core 0 0).cooper.parts = []) ∧
    (∃ p, yieldWorld.firstDue 0 0 = some (p, 0) ∧ seatOne (yieldWorld.seats 0 0) (yieldWorld.recOf p.gk) = none) ∧
    yieldWorld.yielder 0 0 = some yieldWarp ∧ (∀ x ∈ yieldWorld.warps, x.yielding = false) ∧ Between yieldWorld yieldWarp ∧ State.Calm yieldWorld ∧ 0 < yieldWorld.dies.length ∧
    Between backWorld backWarp ∧ State.Calm backWorld ∧ backWarp.yielded = true ∧ backWarp.wait = none ∧ backWarp.failing = false ∧ backWarp.stopped = false ∧
    (seatOne (backWorld.seats 0 0) (backWorld.recOf 0)).isSome = true := by
  have h : ∃ p, yieldWorld.firstDue 0 0 = some (p, 0) ∧ seatOne (yieldWorld.seats 0 0) (yieldWorld.recOf p.gk) = none :=
    ⟨{ gk := 0, entry := 0, recs := [some record0], t0 := 5, join0 := some 5, due := some 0 }, by decide +kernel⟩
  simp only [calm_iff, between_iff, h, true_and]
  decide +kernel

/-- The slots of those rings, and the save slots of those warps, are reached, and stand as they were written. -/
theorem witness_OverflowRingsAndYields_reach :
    (∀ n m i acc, CooperReaches (ringWorld n m w0) 0 0 0 acc (((ringWorld n m w0).recOf 0).ring.toNat
      + 0 * ((ringWorld n m w0).recOf 0).ringsz.toNat + 64 * (i % (((ringWorld n m w0).recOf 0).ringsz.toNat / 64))) 64) ∧
    (∀ x ∈ (((ringWorld 255 1 w0).die 0).ringOf 0).slots, SlotKept (ringWorld 255 1 w0) 0 0 0
      (((ringWorld 255 1 w0).recOf 0).ring.toNat + 0 * ((ringWorld 255 1 w0).recOf 0).ringsz.toNat
        + 64 * (x.pos % (((ringWorld 255 1 w0).recOf 0).ringsz.toNat / 64))) 64 x.seed) ∧
    CooperReaches yieldWorld 0 0 0 .write (yieldWorld.saveAddr yieldWarp) (yieldWorld.recOf 0).saveSlot ∧
    CooperReaches backWorld 0 0 0 .read (backWorld.saveAddr backWarp) (backWorld.recOf 0).saveSlot ∧
    SlotKept backWorld 0 0 0 (backWorld.saveAddr backWarp) (backWorld.recOf 0).saveSlot backWarp.slotSeed := by
  refine ⟨fun n m i acc => ?_, fun x hx => ?_, ?_, ?_, ?_⟩
  · have h : 64 * (i % 512) + 64 ≤ 64 * 512 := by have := Nat.mod_lt i (show 0 < 512 by decide); omega
    have hr : ((ringWorld n m w0).recOf 0).ring.toNat = 0x200000 := rfl
    have hz : ((ringWorld n m w0).recOf 0).ringsz.toNat / 64 = 512 := by
      show (0x8000 : Word).toNat / 64 = 512
      decide
    refine cooper_low _ _ _ _ _ _ _ rfl rfl rfl rfl ?_
    rw [hr, hz]
    omega
  · have hl : (((ringWorld 255 1 w0).die 0).ringOf 0).slots = [{ rcd := record0, pos := 0, seed := 7 }] := rfl
    rw [hl, List.mem_singleton] at hx
    subst hx
    exact slot_kept _ _ _ _ 0x40000 8 7 (still w0).mem rfl rfl rfl rfl (by omega) rfl rfl
  · exact cooper_low _ _ _ _ _ _ _ (by decide +kernel) rfl (by decide +kernel) (by decide +kernel) (by decide +kernel)
  · exact cooper_low _ _ _ _ _ _ _ (by decide +kernel) rfl (by decide +kernel) (by decide +kernel) (by decide +kernel)
  · rw [show backWorld.saveAddr backWarp = 8 * 0x120000 by decide +kernel, show (backWorld.recOf 0).saveSlot = 8 * 6144 by decide +kernel]
    exact slot_kept _ _ _ _ _ _ _ (still backWarp).mem (by decide +kernel) rfl (by decide +kernel) (by decide +kernel) (by omega) rfl (by simp only [backWorld, backWarp])
/-- A record that passes every check: no spawn entries, a done word and a wait word. -/
def rec1 : LaunchRec :=
  { rec0 with
    shape := BitVec.ofNat 32 (31 * 2 ^ 8 + 32 * 2 ^ 13 + 4 * 2 ^ 20), spawn := List.replicate 8 0, sched := BitVec.ofNat 32 (2 ^ 20), array := 0,
    done := 0x50000, wait := [(0x40000, 0x20001), (0x50008, 0), (0, 9), (0, 0)] }

def g1 : Grid := { g0 with rcd := rec1, st := .queued, nextTeam := 0 }

/-- The package with one grid at the head of queue 0, no team and no warp. -/
def lone (g : Grid) : State :=
  { still w0 with
    warps := [], teams := [], grids := [g], dies := { Die.init with l2tlb := [page0] } :: List.replicate 3 Die.init, cores := { Core.init with tlb := [page0] } :: List.replicate 383 Core.init
    lu := { State.reset.lu with queues := { Queue.init with en := true, fifo := [0] } :: List.replicate 63 Queue.init } }

/-- A push that is taken, into a queue with one place left, and three that are not: out of range of the queue, unaligned, unpopulated. -/
theorem witness_QueuesTakePushesAndCommands :
    (∀ x ∈ [(1023, 0x50000, true), (1024, 0x50000, false), (0, 0x50080, false), (0, 2 ^ 47, false)],
      let s := { lone g1 with lu := { (lone g1).lu with queues := List.replicate 64 { Queue.init with fifo := List.replicate x.1 7 } } }
      s.posted = [] ∧ ((s.lu.queues.getD 63 Queue.init).fifo.length < 1024 ∧ x.2.1 % 256 = 0 ∧ s.populated x.2.1 = true ∧
        touchesPoison s.poison x.2.1 256 = false ↔ x.2.2 = true)) ∧
    (lone g1).grids.Pairwise (fun x y => x.key ≠ y.key) ∧ (g1 ∈ (lone g1).grids ∧ g1.rcd.grid = 9 ∧ g1.finished = false) ∧
    let w := { w0 with kill := true, inRun := false }
    (lone g1).up = true ∧ State.HomesIdle (lone g1) ∧ (lone g1).lu.pushes = [] ∧
    Between (still w) w ∧ w.kill = true ∧ w.inRun = false ∧ w.sent = [] := by
  simp only [between_iff, idle_iff]
  decide +kernel

/-- Words of the launch unit at 0x50000, 0x50008 and 0x40000, and at the last of the mapped pages. -/
def wordAt (s : State) (asid : Nat) (a : DWord) (write : Bool) (pa : Nat) : Bool :=
  decide (a.toNat < 2 ^ 55) && !s.lu.answers.contains (asid, a.toNat / 2 ^ 16) &&
    s.populated pa && (match (s.die 0).l2tlb.find? (fun x => x.covers asid a.toNat) with
      | some e => e.pa a.toNat == pa && !e.io && e.r && (!write || e.w)
      | none => false)

theorem wordAt_spec (s : State) (asid : Nat) (a : DWord) (write : Bool) (pa : Nat) (h : wordAt s asid a write pa = true) :
    a.toNat < 2 ^ 55 ∧ (asid, a.toNat / 2 ^ 16) ∉ s.lu.answers ∧ s.populated pa = true ∧
      ∃ e, (s.die 0).l2tlb.find? (fun x => x.covers asid a.toNat) = some e ∧ e.pa a.toNat = pa ∧ e.io = false ∧ e.r = true ∧
        (write = true → e.w = true) := by
  unfold wordAt at h
  split at h
  · rename_i e he
    simp only [Bool.and_eq_true, decide_eq_true_eq, Bool.not_eq_true', beq_iff_eq] at h
    obtain ⟨⟨⟨h1, h2⟩, hp⟩, ⟨⟨rfl, h3⟩, h4⟩, h5⟩ := h
    exact ⟨h1, by simpa using h2, hp, e, he, rfl, h3, h4, fun hw => by simpa [hw] using h5⟩
  · simp at h

theorem witness_GridsAreAdmittedPlacedAndDone :
    (let s := lone g1; s.headOf 0 = some g1 ∧ g1.st = .queued ∧ g1.killed = false ∧ g1.rcd.rejected g1.byRuntime = none ∧ State.HomesIdle s ∧ (∀ x ∈ s.allWarps, x.window = none) ∧ s.lu.pushes = [] ∧
      wordAt s g1.rcd.asidN g1.rcd.done true 0x50000 = true ∧
      g1.rcd.wait.all (fun x => x.1 == 0 || wordAt s g1.rcd.asidN x.1 false x.1.toNat) = true) ∧
    (let g := { g1 with rcd := { rec1 with teams := 0 } }; let s := lone g;
      s.headOf 0 = some g ∧ g.rcd.rejected g.byRuntime = some 2 ∧ s.errFull = false ∧ s.err.held = [] ∧ s.err.order = [] ∧ s.err.waiting = []) ∧
    (∀ x ∈ [rec1, { rec1 with wait := [(0x50000, 1), (0, 0), (0, 0), (0, 0)] }],
      let g := { g1 with st := .admitted, rcd := x }; let s := lone g;
      s.grid? 0 = some g ∧ s.posted = [] ∧ g.rcd.wait.all (fun x => x.1 == 0 || wordAt s g.rcd.asidN x.1 false x.1.toNat && !touchesPoison s.poison x.1.toNat 8) = true ∧
      (g.rcd.wait.all (fun x => x.1 == 0 || decide (x.2.toNat ≤ Memory.value s.mem x.1.toNat 8)) = true ↔ x = rec1)) ∧
    (let s := lone { g1 with st := .ready };
      s.lu.selected = none ∧ s.lu.pointers.getD 0 0 = 0 ∧ s.eligible 0 = true ∧ s.headOf 0 = some { g1 with st := .ready } ∧ g1.rcd.cls = 0 ∧
      0 < ((s.lu.queues.getD 0 Queue.init).deficit + (s.lu.queues.getD 0 Queue.init).quantum : Int) ∧
      (List.range 64).all (fun q => (s.headOf q).all (fun y => !s.eligible q || decide (y.rcd.cls ≤ 0))) = true) ∧
    (∀ x ∈ [rec1, { rec1 with shape := BitVec.ofNat 32 (1 + 31 * 2 ^ 8 + 2 ^ 24) }],
      let s := { lone { g1 with st := .ready, rcd := x } with lu := { (lone g1).lu with selected := some (0, 0) } };
      (s.die 0).waitBack = false ∧ s.offeredTo 0 (s.recOf 0) = true ∧ s.chooseCore 0 (s.recOf 0) = some 0 ∧
      96 * 0 + 0 < s.cores.length ∧ 0 < s.dies.length ∧ ((s.recOf 0).twin = false ↔ x = rec1) ∧ (s.die 0).resv = none) ∧
    (let s := { lone { g1 with st := .ready, rcd := { rec1 with shape := BitVec.ofNat 32 (1 + 31 * 2 ^ 8 + 2 ^ 24) } } with
        warps := [{ w0 with core := 1, inRun := false, yielded := true }], lu := { (lone g1).lu with selected := some (0, 0) }
        dies := { Die.init with resv := some ⟨0, []⟩ } :: List.replicate 3 Die.init };
      (s.recOf 0).twin = true ∧ s.offeredTo 0 (s.recOf 0) = true ∧ (s.die 0).resv = some ⟨0, []⟩ ∧
      s.coreTakes 0 1 (s.recOf 0) ((s.recOf 0).warps - (s.recOf 0).leaders) = false ∧ 0 < s.dies.length) ∧
    (let s := { lone g1 with dies := List.replicate 4 { Die.init with waitBack := true } }; (s.die 3).waitBack = true ∧ 3 < s.dies.length) ∧
    (let s := { lone { g1 with nextTeam := 1 } with teams := [m0] };
      s.team? m0.gk m0.idx = some m0 ∧ s.grid? m0.gk = some { g1 with nextTeam := 1 } ∧ s.teamOver m0 = true ∧ m0.due = none ∧ s.posted = [] ∧ (s.verifyTeam m0).errRoom m0.die = true) ∧
    let g := { g1 with nextTeam := 1, ended := 1, st := .ready }
    let s := { lone g with lu := State.reset.lu }
    s.grid? g.key = some g ∧ s.gridDue g = true ∧ g.rcd.done.toNat % 8 = 0 ∧ wordAt s g.rcd.asidN g.rcd.done true 0x50000 = true ∧
      touchesPoison s.poison 0x50000 8 = false ∧ (s.line (0x50000 / 128)).engine = none ∧ (s.line (0x50000 / 128)).lock = none ∧
      s.posted = [] := by
  simp only [idle_iff]
  refine ⟨?_, ?_, ?_, ?_, ?_, ?_, ?_, ?_, ?_⟩ <;> decide +kernel

def err0 : ErrRec := { kind := 4, code := 0, die := 0, core := 0, grid := 0, team := 0, unit := 0, addr := 0, time := 0, data := [] }

/-- Records held by a die, with the ring neither full nor empty; correctable errors counted, with the ring free and full; a die and
core at the end of their ranges; memory that the ring does not touch. -/
theorem witness_ErrorsAreHeldAndRecorded :
    (let s := { still w0 with dies := List.replicate 4 { Die.init with heldErr := [err0, err0] }, err := { State.reset.err with eqbase := 0x100000, eqtail := 4094, order := [3, 3] } };
      s.dies.length = 4 ∧ s.errHeld 3 = err0 :: [err0] ∧ s.errFull = false ∧ s.err.order.head? = some 3 ∧ s.err.waiting = []) ∧
    (∀ t ∈ [4094, 4095], let s := { still w0 with err := { State.reset.err with eqbase := 0x100000, eqtail := BitVec.ofNat 64 t, corr := [(3, 95, 6, 5, none)] } };
      s.err.corr.find? (fun x => x.1 == 3 && x.2.1 == 95 && x.2.2.1 == 6) = some (3, 95, 6, 5, none) ∧ (s.errFull = true ↔ t = 4095)) ∧
    (let s := still w0; s.up = true ∧ State.HomesIdle s ∧ (∀ x ∈ s.allWarps, x.window = none) ∧ s.pwr.rails = true ∧ 3 < s.sku.dies ∧ 96 * 3 + 95 < s.cores.length ∧ 240 < ((241 : Int) - (s.core 3 95).calTemp).natAbs ∧ 3 < s.dies.length ∧
      s.populated 0x90010 = true ∧ tierOf 0x90010 < 2 ∧ s.posted = [] ∧ s.err.eqbase.toNat + 128 * 4095 + 128 ≤ 0x90010 / 32 * 32) ∧ Between (still w0) w0 ∧ 15 < w0.lanes.length := by
  simp only [between_iff, idle_iff]
  decide +kernel

/-- A command at the end of its range and one that is ill-formed, with a change in progress and without; a throttle from the highest
P-state; images that no boot accepts, the rails on and off; an update and requests of a running package. -/
theorem witness_PowerBootAndAttestation :
    (∀ b ∈ [true, false], ({ s0 with pwr := { s0.pwr with busy := b } } : State).pwr.busy = b) ∧ s0.pwr.rails = true ∧
    ((0x20F : DWord).toNat < 2 ^ 10 ∧ (0x20F : DWord).toNat / 2 ^ 4 % 2 ^ 4 = 0 ∧ (0x20F : DWord).toNat / 2 ^ 8 ≠ 3) ∧
    ¬((0x301 : DWord).toNat < 2 ^ 10 ∧ (0x301 : DWord).toNat / 2 ^ 4 % 2 ^ 4 = 0 ∧ (0x301 : DWord).toNat / 2 ^ 8 ≠ 3) ∧
    (let s := { s0 with dies := List.replicate 4 { Die.init with pstate := 0 } }; 3 < s.sku.dies ∧ 3 < s.dies.length ∧ (s.die 3).pstate < 2) ∧
    (∀ b ∈ [true, false], ({ s0 with pwr := { s0.pwr with rails := b } } : State).pwr.rails = b) ∧
    imageOk s0.mgmt.slotA s0.mgmt.keyHash s0.mgmt.svnFuse = false ∧ s0.mgmt.boot = .running ∧ s0.mgmt.spdm.stage = 0 := by
  decide +kernel

/-- A copy of 128 bytes from 0x50000 to 0x60000. -/
def copy0 : Copy :=
  { uid := 2, die := 0, core := 0, w := 1, tag := 63, gk := 0, team := 0, fn := .g2g, cb := [0x50000, 0, 0x60000, 0], pending := false,
    refused := false, owned := [], taken := 0, bytes := 0, out := [], failed := false, waits := none, confirmed := 0, remote := none }

/-- The package with no instruction under way, its core changed. -/
def coreWorld (f : Core → Core) : State := { still w0 with cores := f core0 :: List.replicate 383 Core.init }

/-- An EX-mode product of one row, eight segments and 320 columns, formats FP4-like and FP4-like. -/
def mop0 (steps : Nat) : MOp := { mopOf 3 1 0 0 0 true [0, 340, 383, 63] [0, 7, 319, 0x11] with steps := steps }

theorem witness_MatrixWorkEnds :
    (let s := coreWorld (fun c => { c with copies := [copy0] });
      s.cur = none ∧ s.snooped = none ∧ State.Calm s ∧ s.err.waiting = [] ∧ s.copy? copy0.uid = some copy0 ∧ s.team? copy0.gk copy0.team = some m0 ∧
      s.copyReady copy0 m0 = true ∧ copy0.refused = false ∧ copy0.taken = 0 ∧ copy0.bytes = 0 ∧ copy0.out = [] ∧ copy0.waits = none ∧ (∀ i < 128, ReachesAt s 0 0 (s.asidOf copy0.gk) .read (0x50000 + i) 1 (0x50000 + i) ∧
        touchesPoison s.poison (0x50000 + i) 1 = false ∧ ReachesAt s 0 0 (s.asidOf copy0.gk) .write (0x60000 + i) 1 (0x60000 + i))) ∧
    (let s := coreWorld (fun c => { c with mq := [mop0 0] }); State.Calm s ∧ 96 * 0 + 0 < s.cores.length ∧ (s.core 0 0).run = none ∧
      (s.core 0 0).mq = [mop0 0] ∧ s.team? 0 0 = some m0 ∧ s.blocked 3 ((mop0 0).zones m0) = false) ∧
    ∀ n ∈ [0, 4], let s := coreWorld (fun c => { c with run := some (mop0 n) })
      State.Calm s ∧ (s.core 0 0).run = some (mop0 n) ∧ (mop0 n).m * fmtWidth (mop0 n).afmt = 4 ∧ (n < 4 → (n + 1) % 4 ≠ 0) := by
  simp only [calm_iff, reachesAt_iff]
  decide +kernel

theorem witness_ExactProductsAreExact : let s := coreWorld (fun c => { c with run := some (mop0 3) })
    (s.core 0 0).run = some (mop0 3) ∧ s.team? (mop0 3).gk (mop0 3).team = some m0 ∧ m0.die = 0 ∧ m0.core = 0 ∧ (mop0 3).rep = 0 ∧
    (mop0 3).fails = [] ∧ 0 < (mop0 3).m ∧ (mop0 3).steps + 1 = (0 + 1) * fmtWidth (mop0 3).afmt ∧ 0 < fmtWidth (mop0 3).afmt ∧
    s.err.waiting = [] ∧ (∀ q < (mop0 3).n, (m0.column ((mop0 3).n0 + q)).2 < 320 ∧ (m0.column ((mop0 3).n0 + q)).1 ∈ m0.cores) ∧
    ∀ x ∈ m0.cores, 96 * 0 + x < s.cores.length ∧ (s.core 0 x).rowBuf.poison = [] ∧ (∀ u ∈ (s.core 0 x).units, u.scrubbed = []) ∧
      (s.core 0 x).scale.poison = [] ∧ (s.core 0 x).acc.poison = [] := by
  decide +kernel

/-- The team in a mode, its macros in a residence, a macro with a correctable error read by an mmul whose tag is DONE. -/
def modeTeam (md : ModeSt) (r : Resid) (soft : List Nat) (f : Core → Core) : State :=
  { coreWorld (fun c => f { c with units := c.units.map (fun u => { u with mode := r, soft := soft, readers := [(1, 3)] }) }) with
    teams := [{ m0 with mode := md }], warps := [{ w0 with tags := w0.tags.set 63 (.done 0 0 3) }] }

theorem witness_ModePointsArePassed :
    (∀ md ∈ [ModeSt.cWait [2], .cStart, .sWait, .cal], ∀ f ∈ [[], [copy0]],
      let s := modeTeam md .storage [] (fun c => { c with copies := f })
      s.team? 0 0 = some { m0 with mode := md } ∧ s.err.waiting = [] ∧ (s.copy? 2 = none ↔ f = []) ∧ State.Calm s ∧
      (∀ w ∈ s.teamWarps 0 0, Between s w ∧ w.window = none) ∧ s.teamWarps 0 0 ≠ [] ∧
      (∀ w ∈ s.allWarps, (∀ x ∈ w.sent, x.space = .global) ∧ w.window = none) ∧
      ∀ p < 40, ((s.core 0 0).units[p]?).map (fun u => u.owner) = some (some (0, 0))) ∧
    (∀ x ∈ [([], [mop0 0]), ([], []), ([1535], [])], let s := modeTeam .sWait .compute x.1 (fun c => { c with mq := x.2 })
      ((∃ o ∈ (s.core 0 0).mq ++ (s.core 0 0).run.toList, o.gk = 0 ∧ o.team = 0) ↔ x.2 ≠ []) ∧
      ∀ p < 40, ((s.core 0 0).units[p]?).all (fun u => u.mode == .compute && u.readers.contains (1, 3) &&
        decide ((s.core 0 0).verifyErrs p u = x.1)) = true) ∧
    (let s := modeTeam .cal .storage [] id;
      m0.due = none ∧ (∀ p < 40, ((s.core 0 0).units[p]?).all (fun u => u.mode != .compute) = true) ∧
      s.errRoom m0.die = true ∧ s.canClose { m0 with mode := .cal } = true ∧ m0.st = .running) := by
  simp only [calm_iff, between_iff]
  decide +kernel

/-- A memory of 64-bit words. -/
def words (l : List (Nat × Nat)) : List Host.Cell := l.foldl (fun m e => Memory.writes m e.1 (toBytes 8 e.2)) []

/-- Tables with a small page mapped by the last entry of a table, and a fault of the last page of an address space without tables. -/
def tableWorld : State :=
  { still w0 with mem := words [(0x40000, 0x20001), (0x20000, 0x30001), (0x30008, 0x70001), (0x7FFF8, 0x123450000 + 3 + 4 * 15)] }

def fault0 : PageFault :=
  { asid := 1, page := 2 ^ 39 - 1, acc := .atomic, source := 0, malformed := true, core := 95, die := 3, entered := false, mig := false,
    waiters := [.warp 1] }

theorem witness_FaultsAreWalkedAndAnswered :
    (let s := tableWorld; let page := 2 ^ 13 + 8191; s.up = true ∧ State.HomesIdle s ∧ (∀ x ∈ s.allWarps, x.window = none) ∧ 0 < s.dies.length ∧ page < 2 ^ 39 ∧ 96 * 0 + 0 < s.cores.length ∧
      ((s.core 0 0).tlb ++ (s.die 0).l2tlb).all (fun e => !e.covers 0 (65536 * page)) = true ∧ Memory.value s.mem (s.mmu.atbase.toNat + 16 * 0) 8 = 0x20000 + 1 ∧
      Memory.value s.mem (s.mmu.atbase.toNat + 16 * 0 + 8) 8 = 0 ∧ Memory.value s.mem (0x20000 + 8 * (page / 2 ^ 26)) 8 = 0x30000 + 1 ∧
      Memory.value s.mem (0x30000 + 8 * (page / 2 ^ 13 % 2 ^ 13)) 8 = 0x70000 + 1 ∧
      Memory.value s.mem (0x70000 + 8 * (page % 2 ^ 13)) 8 = 0x123450000 + 3 + 4 * 15 ∧ 0x123450000 % 65536 = 0) ∧
    (let s := tableWorld; Memory.value s.mem (s.mmu.atbase.toNat + 16 * 1) 8 % 2 = 0 ∧ s.mmu.faults = [] ∧
      ((s.core 3 95).tlb ++ (s.die 3).l2tlb) = [] ∧ 3 < s.dies.length ∧ 96 * 3 + 95 < s.cores.length) ∧
    (∀ h ∈ [0, 1], let s := { tableWorld with mmu := { tableWorld.mmu with faults := [fault0], fqtail := 4095, fqhead := BitVec.ofNat 64 h } }
      s.mmu.faults = [fault0] ∧ s.posted = [] ∧ ((s.mmu.fqtail.toNat + 1) % 4096 ≠ s.mmu.fqhead.toNat % 4096 ↔ h = 1)) ∧
    ∀ fetch ∈ [true, false], let w := { w0 with front := [{ e0 with park := .page (2 ^ 39 - 1) 1 0x10000 fetch false }] }
      let s := { still w with mmu := { tableWorld.mmu with faults := [fault0, { fault0 with asid := 2 }] } }
      fault0 ∈ s.mmu.faults ∧ fault0.mig = false ∧ (∀ x ∈ s.mmu.faults, x.page = fault0.page → x.asid = fault0.asid → x = fault0) ∧
      fault0.waiters = [.warp w.uid] ∧ Between s w ∧ w.window = none ∧ w.heldTraps = [] ∧ w.held = [] := by
  refine ⟨?_, ?_, ?_, ?_⟩ <;> try simp only [between_iff, idle_iff]
  all_goals decide +kernel

/-- A command for the small page of those tables, one with a reserved bit, and a migration whose entry is marked. -/
def moveWorld (cmd : Nat) : State :=
  { tableWorld with
    mem := [(0x100000, cmd), (0x100008, 0x8000020000), (0x7FFF8, 0x123450000 + 3 + 4 * 7)].foldl (fun m e => Memory.writes m e.1 (toBytes 8 e.2)) tableWorld.mem
    mmu := { tableWorld.mmu with mqbase := 0x100000, mqtail := 1, tfree := [9, 9, 9] } }

def move0 : Migration := { uid := 9, slot := 0x100000, asid := 0, page := 2 ^ 13 + 8191, old := 0x110000, new := 0x90000, pte := 0x7FFF8 }

theorem witness_TranslationsAreShotDownAndPagesMoved :
    (∀ x ∈ [none, some (2, 0, 0)], let s := { tableWorld with mmu := { tableWorld.mmu with sdNow := x } }
      s.up = true ∧ s.cur = none ∧ s.snooped = none ∧ State.Calm s ∧ s.mmu.sdQueue = [] ∧
      (∀ w ∈ s.warps, w.sent = [] ∧ w.loads = [] ∧ w.cmpWait = false) ∧ ∀ k ∈ s.cores, ∀ c ∈ k.copies, c.out = []) ∧
    (∀ x ∈ [((2 ^ 13 + 8191) * 2 ^ 16, true), ((2 ^ 13 + 8191) * 2 ^ 16 + 2 ^ 14, false), (0, false)], let s := moveWorld x.1
      State.Calm s ∧ s.mmu.mqhead ≠ s.mmu.mqtail ∧ s.mmu.migs.length < 8 ∧ s.mmu.sdNow = none ∧ Memory.value s.mem 0x100000 8 = x.1 ∧
      (x.2 = true ↔ (x.1 / 2 ^ 14 % 4 = 0 ∧ s.migRefused (x.1 % 2 ^ 14) (x.1 / 2 ^ 16 % 2 ^ 39) (Memory.value s.mem 0x100008 8) = false)) ∧
      (x.2 = true → pteSlot s 0 (65536 * (2 ^ 13 + 8191)) = some 0x7FFF8)) ∧
    let s := { moveWorld 0 with mem := Memory.writes (moveWorld 0).mem 0x7FFF8 (toBytes 8 (0x110000 + 62 + 2 ^ 6))
                                mmu := { (moveWorld 0).mmu with migs := [move0] } }
    State.Calm s ∧ Memory.wf s.mem = true ∧ s.mmu.migs = [move0] ∧ s.mmu.sdNow = none ∧ s.mmu.sdQueue = [] ∧ s.mmu.faults = [] ∧
      move0.old % 65536 = 0 ∧ move0.new % 65536 = 0 ∧ move0.old ≠ move0.new ∧ move0.old < 2 ^ 52 ∧ move0.new < 2 ^ 52 ∧
      (∀ f ∈ [move0.old, move0.new], (move0.pte + 8 ≤ f ∨ f + 65536 ≤ move0.pte) ∧ (move0.slot + 24 ≤ f ∨ f + 65536 ≤ move0.slot)) ∧
      s.populated move0.old = true ∧ s.populated move0.new = true ∧ move0.pte + 8 ≤ move0.slot + 16 ∧ Memory.value s.mem move0.pte 8 = move0.old + 62 + 2 ^ 6 := by
  simp only [calm_iff]
  refine ⟨?_, ?_, ?_⟩ <;> decide +kernel

/-- The package with one line record: line 2560, whose home is die 0. -/
def lineWorld (f : LineRec → LineRec) : State := { still w0 with lines := [f (LineRec.init 2560)] }

def lineOk (s : State) : Bool :=
  s.posted.isEmpty && s.allWarps.all (fun w => w.window.isNone) && (s.line 2560).st.length == 5 && (s.line 2560).halves.length == 2 && (s.line 2560).asked.length == 2
    && (s.line 2560).narrow.isEmpty && s.homeDie (2560 * 128) == 0

/-- A holder that has no copy asks for one, and there is room for it. -/
def mayAsk (s : State) (h : Holder) : Bool :=
  s.holderOk h && s.populated (128 * 2560) && (s.line 2560).of h == .i && (s.line 2560).busy != some h

/-- The home can serve a request at once. -/
def canServe (s : State) : Bool :=
  s.populated (128 * 2560) && (s.line 2560).isOpen && (s.line 2560).queue.isEmpty && s.trackerFree 2560

/-- Nobody, the home, H and another die own the line; it is busy; a grant awaits its acknowledgement; the trackers are full or kept for
the retry list, and one is free for its head; the host holds nothing, or a half. -/
theorem witness_HomesGrantCopies :
    (∀ st ∈ [[Fab.i, .i, .i, .i, .i], [.e, .i, .i, .i, .i], [.i, .m, .i, .i, .i], [.i, .s, .i, .i, .i]], ∀ h ∈ [(0 : Holder), 3],
      let s := lineWorld (fun r => { r with st := st })
      lineOk s = true ∧ (st.getD h.val .i = .i → mayAsk s h = true) ∧ Half.hm ∉ (s.line 2560).halves ∧ s.noRoom h.val 2560 = false ∧
      (s.line 2560).owner ≠ some 4 ∧ canServe s = true) ∧
    (let s := lineWorld (fun r => { r with lock := some (1, 0) });
      lineOk s = true ∧ mayAsk s 3 = true ∧ (s.line 2560).isOpen = false ∧ s.trackerFree 2560 = true ∧
      (s.slice 0 (homeSlice (2560 * 128))).retry = []) ∧
    (let s := lineWorld (fun r => { r with busy := some 3, st := [.i, .i, .i, .e, .i] });
      lineOk s = true ∧ (s.line 2560).busy = some 3 ∧ (s.line 2560).of 3 ≠ .i ∧ (s.line 2560).acks = [] ∧ s.lines.Pairwise (fun a b => a.line ≠ b.line)) ∧
    (let s := { lineWorld id with
        dies := { Die.init with slices := [{ slice := homeSlice (2560 * 128), retry := List.replicate 64 (2560, .rds 3) }] } :: List.replicate 3 Die.init };
      lineOk s = true ∧ s.trackerFree 2560 = false ∧ mayAsk s 4 = true ∧ 0 < s.dies.length ∧ (s.line 2560).queue = [] ∧
      (2560, HomeReq.rds 4) ∉ (s.slice 0 (homeSlice (2560 * 128))).retry ∧ (s.slice 0 (homeSlice (2560 * 128))).retry.head? = some (2560, .rds 3) ∧
      s.trackers 0 (homeSlice (2560 * 128)) < 64) ∧
    ∀ h ∈ [[Half.hi, .hi], [.hs, .hi], [.hi, .hm]],
      let s := lineWorld (fun r => { r with st := [.i, .i, .i, .i, if h = [.hi, .hi] then .i else if h = [.hs, .hi] then .s else .m], halves := h })
      lineOk s = true ∧ s.hostPort = true ∧ canServe s = true ∧ (s.filterRoom 2560).waits = false ∧ s.noRoom 4 2560 = false := by
  refine ⟨?_, ?_, ?_, ?_, ?_⟩
  all_goals decide +kernel

/-- A die that holds the line in each state, with the home or a lower die sharing or not; write-back buffers; a grant waiting for a copy
forwarded; a host that holds a half in HM or HS and has been asked for it or not. -/
theorem witness_HoldersGiveLinesUp :
    (∀ st ∈ [[Fab.i, .e, .i, .i, .i], [.i, .m, .i, .i, .i], [.i, .o, .i, .s, .i], [.i, .s, .i, .i, .i], [.m, .s, .i, .i, .i], [.o, .s, .s, .i, .i]],
      ∀ b ∈ [[], [(1 : Holder)]], ∀ e ∈ [none, some 7],
      let s := lineWorld (fun r => { r with st := st, wb := b, engine := e })
      lineOk s = true ∧ s.holderOk 1 = true ∧ s.snoopsOut 1 2560 < 8 ∧ (s.line 2560).busy = none ∧ (s.line 2560).lock = none ∧
      ((s.line 2560).isOpen = true ↔ e = none) ∧ (s.line 2560).engine = e ∧ s.trackerShut 2560 = false ∧ (s.line 2560).of 1 = st.getD 1 .i ∧ (s.line 2560).of 0 = st.getD 0 .i ∧
      ((s.line 2560).owner = some 1 ↔ st.getD 1 .i ≠ .s) ∧ ∀ d < 1, d ≠ 0 → (s.line 2560).of d ≠ .s) ∧
    (∀ d ∈ [Fab.s, .i], let s := lineWorld (fun r => { r with st := [d, .e, .i, .i, .i] })
      lineOk s = true ∧ s.holderOk 0 = true ∧ (s.line 2560).of 0 = d ∧ (s.line 2560).of 0 ≠ .m ∧ (s.line 2560).of 0 ≠ .o) ∧
    (let s := lineWorld (fun r => { r with st := [.i, .m, .i, .i, .i], busy := some 3 });
      (∀ b ∈ [[], [(1 : Holder)]], let s := lineWorld (fun r => { r with st := [.i, .m, .i, .i, .i], wb := b, busy := some 3 })
        (s.line 2560).owner = some 1 ∧ s.noRoom 3 2560 = false ∧ (s.line 2560).wb = b) ∧
      lineOk s = true ∧ (s.line 2560).owner = some 1 ∧ (s.line 2560).busy = some 3 ∧ (s.line 2560).of 3 = .i ∧ s.noRoom 3 2560 = false) ∧
    (∀ h ∈ [[Half.hm, .hi], [.hs, .hm], [.hi, .hs]], ∀ w ∈ [false, true],
      let s := lineWorld (fun r => { r with halves := h, asked := h.map (fun x => if x = .hi then none else some (w, 0)), acks := [4],
                                            st := [.i, .i, .i, .i, if h = [.hi, .hs] then .s else .m] })
      lineOk s = true ∧ (s.line 2560).halves ≠ [.hi, .hi] ∧ s.holderOk 4 = true ∧ (s.line 2560).busy = none ∧ (s.line 2560).lock = none ∧
      ((s.line 2560).owner = some 4 ↔ h ≠ [.hi, .hs]) ∧ s.homeDie (2560 * 128) ≠ 4 ∧
      (4 : Holder) ∈ (s.line 2560).acks ∧ s.errRoom 7 = true ∧ s.err.eqbase.toNat + 128 * (s.err.eqtail.toNat % 4096) + 128 ≤ 128 * 2560) ∧
    let s := lineWorld (fun r => { r with acks := [0, 1, 2, 3, 4] })
    lineOk s = true ∧ (∀ h : Holder, h ∈ (s.line 2560).acks) ∧ (s.line 2560).halves = [.hi, .hi] ∧
    (∀ x ∈ [(0, []), (4095, []), (0, [0])], let z := { s with err := { s.err with eqtail := BitVec.ofNat 64 x.1, order := x.2, eqbase := 0x100000 } }
      (z.errFull = true ↔ x.1 = 4095) ∧ (z.err.order ≠ [] ↔ x.2 = [0]) ∧ 128 * 2560 + 128 ≤ z.err.eqbase.toNat) ∧
    (∀ i < 16, (0 : BitVec 16).getLsbD i = true → 16 * 2560 + i ∈ s.poison) := by
  refine ⟨?_, ?_, ?_, ?_, ?_⟩
  all_goals decide +kernel
def store0 : StoreRec := { lane := 1, space := .global, addr := 0x50000, bytes := [1, 2, 3, 4], posted := false, seq := 0 }

/-- A drain that adds into line 2560. -/
def copy1 : Copy := { copy0 with fn := .drainAddF32, cb := [0x50000, 0, 0, 0] }

theorem witness_WritesTakeTheirPlace :
    (∀ st ∈ [store0, { store0 with posted := true }, { store0 with space := .array 0 0, addr := 491516 }],
      let w := { w0 with sent := [st] }
      (still w).cur = none ∧ (still w).snooped = none ∧ (still w).posted = [] ∧ Between (still w) w ∧ State.Calm (still w) ∧
        w.sent = [st] ∧ w.loads = [] ∧ w.cmpWait = false ∧ st.spawn = none) ∧
    (∀ x ∈ [(0x50000, 128), (0x5007F, 1)], (lineWorld id).inLine x.1 x.2 = true) ∧
    (∀ n ∈ [1, 2, 4, 8, 16], (lineWorld id).inLine (0x50080 - n) n = true ∧ (0x50080 - n) % n = 0 ∧ (lineWorld id).poisoned (0x50080 - n) n = false) ∧
    (State.Calm (lineWorld id) ∧ (lineWorld id).holderOk 4 = true) ∧
    (∀ x ∈ [(0, none), (1, none), (0, some (1, 1)), (1, some (1, 1))], let w := { w4 (BitVec.ofNat 8 x.1) with atTxe := 2 }
      let s := { still w with lines := [{ LineRec.init 2560 with lock := x.2 }] }
      Between s w ∧ w.window = none ∧ w.txeLanes = [1] ∧ (w.lane 1).tx.lines = [2560] ∧ s.lineWaits w.uid [1] 1 (w.lane 1).tx 2560 = false ∧
      (s.line 2560).narrow = [] ∧ (s.line 2560).lock = x.2 ∧ (w.lane 1).tx.rset.map Prod.fst = [0x50000] ∧
      (Memory.read s.mem 0x50000 = BitVec.ofNat 8 x.1 ↔ x.1 = 0) ∧ ∀ M < 16, M ≠ 1 → (w.lane M).txActive = false) ∧
    (∀ e ∈ [none, some 7], let s := { coreWorld (fun k => { k with copies := [copy0] }) with lines := [{ LineRec.init 3072 with engine := e }] }
      (∀ x ∈ s.warps, x.window = none ∧ x.anyTx = false) ∧ s.copy? copy0.uid = some copy0 ∧ s.team? copy0.gk copy0.team = some m0 ∧
      copy0.pending = false ∧ copy0.refused = false ∧ copy0.fn.isAdd = false ∧ s.nextOwn copy0 = some 3072 ∧ ((s.line 3072).isOpen = true ↔ e = none) ∧
      (s.line 3072).queue = [] ∧ s.trackerFree 3072 = true ∧ s.homeDie (3072 * 128) = 0 ∧
      (s.slice 0 (homeSlice (3072 * 128))).retry = []) ∧
    (let c := { copy0 with owned := [3072] }
      let s := { coreWorld (fun k => { k with copies := [c] }) with lines := [{ LineRec.init 3072 with engine := some 2 }] }
      s.copy? c.uid = some c ∧ c ∈ (s.core c.die c.core).copies ∧ s.team? c.gk c.team = some m0 ∧ s.copyReady c m0 = true ∧
      s.stepsTo c 3072 ≠ 0 ∧ (c.carry m0 s (s.stepsTo c 3072)).halt = none ∧ (c.carry m0 s (s.stepsTo c 3072)).cells ≠ [] ∧
      s.lineFor c.uid 3072 = true ∧ ∀ b ∈ (c.carry m0 s (s.stepsTo c 3072)).cells, b.1 / 128 = 3072) ∧
    ∀ e ∈ [none, some 7],
      let s := { coreWorld (fun k => { k with copies := [copy1] }) with lines := [{ LineRec.init 2560 with engine := e }] }
      s.copy? copy1.uid = some copy1 ∧ copy1 ∈ (s.core 0 0).copies ∧ s.team? 0 0 = some m0 ∧ s.copyReady copy1 m0 = true ∧
      s.addTarget copy1 = some 2560 ∧ (copy1.carry m0 s 1).halt = none ∧ (copy1.carry m0 s 1).cells ≠ [] ∧
      (s.lineFor copy1.uid 2560 = true ↔ e = none) ∧ s.trackerFree 2560 = true ∧ s.homeDie (2560 * 128) = 0 ∧
      (s.slice 0 (homeSlice (2560 * 128))).retry = [] := by
  refine ⟨?_, ?_, ?_, ?_, ?_, ?_, ?_, ?_⟩ <;> try simp only [between_iff, calm_iff]
  all_goals decide +kernel

/-- A sound frame of device 5. -/
def frame0 (kind lines seq : Nat) : Frame :=
  mkFrame kind lines 5 0 (BitVec.ofNat 32 seq) 3 1 0x50000 8 2 (if kind = 1 ∨ kind = 4 then [] else List.replicate (128 * lines) 9)

def xfer0 : Xfer := { id := 8, copy := 2, dst := 5, op := 0, total := 4, la := 0x60000, ra := 0x50000, stop := 0, confirmed := 0 }

def out0 (tries : Nat) : OutFrame :=
  { id := 9, frame := { frame0 0 1 4 with src := 0, dst := 5 }, owner := some 8, tries := tries, born := 0, last := 0 }

/-- A receive window from number 100 with 101 received, a route, an export, a copy, its transfer and the frames that are out. -/
def netWorld (x : Xfer) (o : List OutFrame) : State :=
  { coreWorld (fun c => { c with copies := [copy0] }) with
    dies := { Die.init with l2tlb := [page0] } :: List.replicate 3 Die.init
    net := { routes := [(5, 0x0201)], exports := [(5, 2, 0)], rx := [{ src := 5, base := 100, got := [101] }], tx := [], xfers := [x], sent := []
             out := o, turn := 0, refused := [] } }

/-- What makes a frame sound but for its CRC-32C. -/
def soundB (s : State) (f : Frame) (kind : Nat) : Bool :=
  s.up && (f.etherType == 0x8A7E && frameVersion f == 1 && frameKind f == kind && f.rsv2 == 0 && f.rsv26 == 0
    && decide (f.src.toNat < 2 ^ 19) && decide (f.dst.toNat < 2 ^ 19) && decide (f.asid.toNat < 2 ^ 14) && f.ra.toNat % 128 == 0
    && (if kind = 4 then f.lines == 0 else decide (1 ≤ f.lines.toNat) && decide (f.lines.toNat ≤ 8))
    && (if kind = 1 ∨ kind = 4 then f.payload == [] else f.payload.length == 128 * f.lines.toNat)) && f.dst.toNat == s.mgmt.dev

theorem frame0_ok (s : State) (k l q : Nat) : s.frameOk (frame0 k l q) k = soundB s (frame0 k l q) k := by
  have h : frameSum (frame0 k l q) = (frame0 k l q).crc := rfl
  simp only [State.frameOk, frameSound, soundB, h, beq_self_eq_true, Bool.and_true]

/-- The check value of CRC-32C: that of the nine digits. -/
theorem test_crc32c : crc32c [0x31, 0x32, 0x33, 0x34, 0x35, 0x36, 0x37, 0x38, 0x39] = 0xE3069283 := by decide +kernel

def freshB (s : State) (fr : Frame) : Bool :=
  decide ((fr.seq - (s.net.rxOf fr.src.toNat).base).toNat < 4096) && !(s.net.rxOf fr.src.toNat).got.contains fr.seq

def notedB (s : State) (fr : Frame) : Bool :=
  seqBefore fr.seq (s.net.rxOf fr.src.toNat).base || (s.net.rxOf fr.src.toNat).got.contains fr.seq

theorem witness_RemoteLinesAndLinks :
    (let s := netWorld xfer0 []; s.cur = none ∧ s.snooped = none ∧ State.Calm s ∧ routeValid (s.net.route 5) = true ∧ s.net.refused = []) ∧
    (∀ x ∈ [(0, 0), (1, 1), (3, 2)], ∀ seq ∈ [100, 4195], let s := netWorld xfer0 []; let fr := frame0 x.1 8 seq
      fr.src.toNat = 5 ∧ s.frameOk fr x.1 = true ∧ s.exportOf fr.src.toNat fr.asid.toNat = some 0 ∧ freshB s fr = true ∧
      ∀ i < 8, s.remoteLine 0 (fr.ra.toNat + 128 * i) x.2 = (.ok (0x50000 + 128 * i), s)) ∧
    (∀ seq ∈ [99, 101, 2 ^ 32 - 1], let s := netWorld xfer0 []; s.frameOk (frame0 0 1 seq) 0 = true ∧ notedB s (frame0 0 1 seq) = true) ∧
    (let s := netWorld { xfer0 with op := 1 } []; let fr := frame0 2 1 100; s.frameOk fr 2 = true ∧ freshB s fr = true ∧
      s.net.xfers.find? (fun y => y.id % 2 ^ 32 == fr.xfer.toNat && y.dst == 5 && y.op == 1) = some { xfer0 with op := 1 } ∧
      s.copy? 2 = some copy0 ∧ copy0.waits = none ∧ fr.ra.toNat = 0x50000 + 128 * 0 ∧
      ∀ i < 128, ReachesAt s 0 0 (s.asidOf 0) .write (0x60000 + 128 * 0 + i) 1 (0x60000 + i)) ∧
    (let s := netWorld xfer0 []; let fr := frame0 4 0 0; s.frameOk fr 4 = true ∧ (out0 1).frame.dst = fr.src ∧ (out0 1).frame.seq ≠ fr.cack ∧
      fr.sack.getLsbD (((out0 1).frame.seq - fr.cack).toNat - 1) = true) ∧
    (∀ n, (netWorld xfer0 [out0 n]).net.out.find? (fun y => y.id == (out0 n).id) = some (out0 n) ∧
      (netWorld xfer0 [out0 n]).net.out.filter (fun o => o.owner == some xfer0.id) = [out0 n]) ∧
    (∀ n ∈ [15, 16], let s := netWorld xfer0 [out0 n]
      (∀ y ∈ s.net.xfers, y.id = xfer0.id → y = xfer0) ∧ xfer0 ∈ s.net.xfers ∧
      max s.ticks (min (0 + min (20 * 2 ^ (n - 1)) 1000 * 18000) (0 + 10000 * 18000)) < 0 + 10000 * 18000 ∧
      routeValid (s.net.route (out0 n).frame.dst.toNat) = true ∧ s.copy? xfer0.copy = some copy0 ∧ s.errRoom 7 = true) ∧
    ∀ n ∈ [15, 16], ∀ b ∈ [false, true], let s := { still w0 with links := [{ x := 3, y := 4, fails := n, retrained := b }] }
      s.linkOk 3 4 = true ∧ (s.link 3 4).fails = n ∧ (s.link 3 4).retrained = b := by
  refine ⟨?_, ?_, ?_, ?_, ?_, fun n => ⟨rfl, rfl⟩, ?_, ?_⟩ <;> try simp only [calm_iff, reachesAt_iff, frame0_ok]
  all_goals decide +kernel

/-- An outcome is a next state. -/
def isNext (o : Out) : Bool := match o with | .next _ => true | _ => false

theorem next_of (o : Out) (h : isNext o = true) : ∃ t, o = .next t := by
  cases o with
  | next t => exact ⟨t, rfl⟩
  | fault r => cases h
  | refused r => cases h

/-- A program of the given bytes, its warp issuing. -/
def running (bs : List Byte) : State := { s0 with mem := Memory.writes s0.mem 0x10000 bs }

theorem witness_StepsKeepTheForm : ∀ s ∈ [State.reset, running (leBytes 0x000280A5 4), State.reset.withFetchWord 32 0x000280A5],
    State.Inv s ∧ ∃ t, step s = .next t := by
  intro s hs
  refine ⟨?_, next_of _ ?_⟩
  · simp only [List.mem_cons, List.not_mem_nil, or_false] at hs
    rcases hs with rfl | rfl | rfl <;> (unfold State.Inv; decide +kernel)
  · simp only [List.mem_cons, List.not_mem_nil, or_false] at hs
    rcases hs with rfl | rfl | rfl <;> decide +kernel

theorem witness_EncodedInstructionsDecode : (Instr.ldgB128 (.v 120) (.ix 2) 0x40 true).wellFormed = true ∧
    encodeBytes (Instr.ldgB128 (.v 120) (.ix 2) 0x40 true) = some (leBytes 0x81FF78B3 4) := by
  decide +kernel

theorem witness_DecodedBytesAreTheEncoding :
    decodeBytes (leBytes 0x81FF78B3 4 ++ [7]) = some (.ldgB128 (.v 120) (.ix 2) 0x40 true, [7]) ∧
    decodeBytes (leBytes 0x3088 2) = some (.add16 2 6 false, []) := by
  decide +kernel

/-- Words of four and of two bytes that decode and that do not. -/
theorem witness_StepRunsTheDecodedInstruction : (∀ x ∈ [(0x000280A5, true), (0x00038005, false), (0x3088, true), (0, false)],
    let s := running (leBytes x.1 4)
    let c := s.codeLine 0 0 0x10000
    let y := c.2.codeLine 0 0 0x10002
    s.up = true ∧ s.agenda = [] ∧ s.stall = false ∧ s.cur = some w0 ∧ w0.die = 0 ∧ w0.core = 0 ∧ w0.selected = some e0 ∧ e0.bad = false ∧ s.lines = [] ∧
    Reaches s w0 .execute e0.pc.toNat 2 0x10000 ∧ c.1.bad.contains (0x10000 / 8) = false ∧
    Reaches s w0 .execute (e0.pc + 2).toNat 2 0x10002 ∧ y.1.bad.contains (0x10002 / 8) = false ∧
    ((c.1.bytes.getD 0 0).getLsbD 0 = true ↔ x.1 % 2 = 1) ∧
    ((decodeBytes (leBytes x.1 (if x.1 % 2 = 1 then 4 else 2))).isSome = x.2)) ∧
    (∀ x ∈ [(0, 0), (3, 95)], 96 * x.1 + x.2 < s0.cores.length ∧ (s0.core x.1 x.2).icache = []) ∧
    (let c := s0.codeFill 0x1FF
     ((s0.modCore 3 95 (fun z => { z with icache := [c] })).core 3 95).icache = [c] ∧ c.line = 0xFFFF / 128 ∧ 0xFFFF / 8 ∉ c.bad) := by
  simp only [reaches_iff]
  decide +kernel

/-- A line that the instruction cache holds is fetched as it was filled (R54, R386). -/
theorem test_instruction_cache_keeps_its_line :
    let s := ((running (leBytes 0x000280A5 4)).codeLine 0 0 0x10000).2
    ((({ s with mem := [] } : State).codeLine 0 0 0x10002).1.half 0x10000) = 0x80A5 := by
  decide +kernel

/-! ## One step of one instruction (the spec's worked values) -/

/-- The small package's warp with values in registers of every lane. -/
def put (vs : List (Nat × Word)) : Warp :=
  { w0 with lanes := w0.lanes.map (fun l => { l with regs := vs.foldl (fun r x => r.set x.1 x.2) l.regs }) }

/-- The warp after one instruction. -/
noncomputable def after (i : Instr) (s : State) : Warp :=
  match exec i s with
  | .next t => (t.warp? 1).getD w0
  | _ => w0

/-- Each instruction leaves the given values in the given registers of lane 1. -/
noncomputable def gives (l : List (Instr × List (Nat × Word) × List (Nat × Word))) : Bool :=
  l.all (fun x => x.2.2.all (fun y => ((after x.1 (world (put x.2.1))).lane 1).reg y.1 == y.2))

/-- The table "Worked values" of the integer instructions. -/
theorem test_integer_worked_values : gives [
    (.mulhiI32 (.v 8) (.v 2) (.v 3) false, [(2, 0xFFFFFFFE), (3, 3)], [(8, 0xFFFFFFFF)]),
    (.mulhiN32 (.v 8) (.v 2) (.v 3) false, [(2, 0xFFFFFFFE), (3, 3)], [(8, 2)]),
    (.minI32 (.v 8) (.v 2) (.v 3) false, [(2, 0xFFFFFFFF), (3, 1)], [(8, 0xFFFFFFFF)]),
    (.minN32 (.v 8) (.v 2) (.v 3) false, [(2, 0xFFFFFFFF), (3, 1)], [(8, 1)]),
    (.abs (.v 8) (.v 2) false, [(2, 0x80000000)], [(8, 0x80000000)]), (.clz (.v 8) (.v 2) false, [(2, 0)], [(8, 32)]),
    (.popc (.v 8) (.v 2) false, [(2, 0xF0F00001)], [(8, 9)]), (.shl (.v 8) (.v 2) (.v 3) false, [(2, 1), (3, 0x21)], [(8, 2)]),
    (.sra (.v 8) (.v 2) (.v 3) false, [(2, 0x80000000), (3, 4)], [(8, 0xF8000000)])] = true := by decide +kernel

theorem test_field_worked_values : gives [
    (.bfeI (.v 8) (.v 2) (.v 3) false, [(2, 0x0F00), (3, 0x0408)], [(8, 0xFFFFFFFF)]),
    (.bfeN (.v 8) (.v 2) (.v 3) false, [(2, 0xA0000000), (3, 0x081C)], [(8, 0xA)]),
    (.bfi (.v 8) (.v 2) (.v 3) false, [(8, 0xFFFFFFFF), (2, 0), (3, 0x0408)], [(8, 0xFFFFF0FF)]),
    (.fshl (.v 8) (.v 2) (.v 10) false, [(2, 0x80000000), (3, 1), (10, 4)], [(8, 0x18)]),
    (.fshr (.v 8) (.v 2) (.v 10) false, [(2, 0x80000000), (3, 1), (10, 4)], [(8, 0x18000000)]),
    (.prmt (.v 8) (.v 2) (.v 10) false, [(2, 0x44332211), (3, 0x88776655), (10, 0xA704)], [(8, 0xFF881155)]),
    (.prmt (.v 8) (.v 2) (.v 10) false, [(2, 0x44332211), (3, 0x88776655), (10, 0x8704)], [(8, 0x00881155)]),
    (.lea (.v 8) (.v 2) (.v 10) 3 false, [(2, 0x10000000), (3, 0), (10, 0xFFFFFFFF)], [(8, 0x0FFFFFF8), (9, 0)])] = true := by
  decide +kernel

/-- The second `addc` of the 96-bit addition, and `xset` past the end of an index register. -/
theorem test_carry_and_index :
    (let w := { put [(9, 0xFFFFFFFF), (10, 0)] with lanes := (put [(9, 0xFFFFFFFF), (10, 0)]).lanes.map (fun l => l.setPred 6 true) };
      let t := (after (.addc (.v 17) (.v 9) (.v 10) false) (world w)).lane 1; t.reg 17 = 0 ∧ t.pred 6 = true) ∧
    ((after (.xset 1 (.v 2) 1 false) (world (put [(2, 0x7FFF)]))).lane 1).xr.getD 1 0 = 0x8000 := by decide +kernel

/-- Worked conversions of 0x3E99999A to bf16, e4m3 and e2m1, with their flags, and the dot products. -/
theorem test_float_worked_values :
    gives [(.dot4I8 (.v 8) (.v 2) (.v 3) false, [(8, 1000), (2, 0x80FF0102), (3, 0x02030405)], [(8, 0x2F3)]),
      (.dot4N8 (.v 8) (.v 2) (.v 3) false, [(8, 1000), (2, 0x80FF0102), (3, 0x02030405)], [(8, 0x7F3)]),
      (.fdot4E4m3 (.v 8) (.v 2) (.v 3) false, [(8, 0x4B800000), (2, 0x3038), (3, 0x3838)], [(8, 0x4B800001)])] = true ∧
    ([(0x04, 0x3E9A, 1), (0x20, 0x2A, 1), (0x24, 0x1, 3)] : List (BitVec 7 × Word × FFlags)).all (fun x =>
      let l := (after (.cvt .rne (.v 8) (.v 2) x.1 false) (world (put [(2, 0x3E99999A)]))).lane 1
      l.reg 8 == x.2.1 && l.fflags == x.2.2) = true := by decide +kernel

/-- The branch at 0x0004 of the divergence example splits the frontier. -/
theorem test_divergence :
    let w := { w0 with front := [.at 4 4 0xFFFF], lanes := w0.lanes.mapIdx (fun L l => l.setPred 1 (decide (L < 6))) }
    let f := (after (.br 6 false 1 4 false false) (world w)).front
    f.length = 2 ∧ f.contains (.at 8 4 0xFFC0) = true ∧ f.contains (.at 0x10 4 0x3F) = true ∧ selectEntry f = some (.at 8 4 0xFFC0) := by
  decide +kernel

/-- The sign-extending load of 0xFF85, and the first CAS of the saturating add: lane 0 swaps, lane 1 reads what lane 0 wrote. -/
theorem test_load_and_cas :
    (let s := { world (put [(4, 0x5000E)]) with mem := Memory.writes s0.mem 0x50008 [0x85, 0xFF] };
      ((after (.ldgB16I (.v 3) (.v 4) 0x7D false) s).lane 1).reg 3 = 0xFFFFFF85) ∧
    let w := { put [(4, 0x50000), (6, 0xFFFFFFF0)] with
      lanes := (put [(4, 0x50000), (6, 0xFFFFFFF0)]).lanes.mapIdx (fun L l => l.setReg 8 (if L = 0 then 0xFFFFFFF8 else 0xFFFFFFFF)) }
    let s := { world w with mem := Memory.writes s0.mem 0x50000 [0xF0, 0xFF, 0xFF, 0xFF] }
    let t := after (.cas32 (.v 6) (.v 4) (.v 8) true) s
    (t.lane 0).reg 6 = 0xFFFFFFF0 ∧ (t.lane 1).reg 6 = 0xFFFFFFF8 ∧
      (match exec (.cas32 (.v 6) (.v 4) (.v 8) true) s with | .next t => Memory.value t.mem 0x50000 4 | _ => 0) = 0xFFFFFFF8 := by
  decide +kernel

/-- `trap #5` in lanes 0 and 1: handler mode, the cause, and the record in memory (R263, R267, R268). -/
theorem test_trap :
    let t := after (.trap 5 false) s0
    t.handler = true ∧ t.tcause = 0x0F ∧ t.tmask = 3 ∧ t.front = [.at 0x14000 7 3] ∧
      (match exec (.trap 5 false) s0 with | .next t => (Memory.read t.mem 0x60000, Memory.read t.mem 0x60002) | _ => (0, 0)) = (0x0F, 5) := by
  decide +kernel

/-- The page walk of ASID 5 in "Worked example: one walk", its home die and slice; X is clear. -/
theorem test_walk :
    let s := { s0 with mem := words [(0x40050, 0x110001), (0x110010, 0x120001), (0x1296C8, 0x130001), (0x13E3F0, 0x12_3456_000F)] }
    walk s 5 0x0A5B_3C7E_1234 = .ok { asid := 5, page := 0xA5B_3C7E, big := false, frame := 0x12_3456_0000, r := true, w := true, x := false, io := false } ∧
    s.homeDie 0x12_3456_1234 = 0 ∧ homeSlice 0x12_3456_1234 = 36 := by decide +kernel

end Sys2Proof.Tests
end

section
/-! PROOFS. Reads of special registers (R21, R22, R260): SRD and SRDS of a register that may be read, once for all registers, then
row by row of the table of R21. -/
namespace Sys2Proof.Machine

open Sys2Proof

/-! ## What a read of a special register writes -/

/-- A lane with a special register's value written to D, a 64-bit one to a pair (R22). -/
def Lane.putSpecial (l : Lane) (alloc : Nat) (d : VReg) (wide : Bool) (v : DWord) : Lane :=
  if wide then l.setVP alloc d v else l.setV alloc d (v.extractLsb' 0 32)

@[simp] theorem Lane.putSpecial_tx (l : Lane) (alloc : Nat) (d : VReg) (wide : Bool) (v : DWord) :
    (l.putSpecial alloc d wide v).tx = l.tx := by
  unfold Lane.putSpecial
  split
  · exact Lane.setVP_tx _ _ _ _
  · exact Lane.setV_tx _ _ _ _

/-- The scalar registers with a special register's value written to D, a 64-bit one to a pair (R22). -/
def putScalar (regs : List Word) (d : SReg) (wide : Bool) (v : DWord) : List Word :=
  if wide then (regs.set d.val (v.extractLsb' 0 32)).set (d.val + 1) (v.extractLsb' 32 32)
  else regs.set d.val (v.extractLsb' 0 32)

theorem set_scalar_eq_putScalar (w : Warp) (d : SReg) (wide : Bool) (v : DWord) :
    (if wide then w.setSP d.val v else w.setS d.val (v.extractLsb' 0 32)) = { w with sregs := putScalar w.sregs d wide v } := by
  cases wide <;> rfl

/-! ## The registers by scope, width, privilege and latency (R21) -/

theorem spSlow_eq_contains (r : SpReg) : spSlow r = [SpReg.clock, .time, .txst].contains r := by cases r <;> rfl

theorem spSlow_of_privileged (r : SpReg) (h : spPrivileged r = true) : spSlow r = false := by
  cases r <;> simp_all [spPrivileged, spSlow]

theorem wide_of_spSlow (r : SpReg) (hl : r.laneScope = false) (h : spSlow r = true) : r.wide = true := by
  cases r <;> simp_all [spSlow, SpReg.wide, SpReg.laneScope]

/-- The test of R21 that raises PRIV does not fire where the register is not privileged or the warp is in handler mode. -/
theorem spPermitted {r : SpReg} {w : Warp} (h : spPrivileged r = true → w.handler = true) :
    (spPrivileged r && !w.handler) = false := by
  cases hp : spPrivileged r with
  | false => rfl
  | true => rw [h hp]; rfl

/-- As an instruction issues, every special register reads as it stood before. -/
theorem special_at_issue (s : State) (w : Warp) (fr : List FEntry) (L : Nat) (r : SpReg) :
    s.awake.listening.special (w.setFront fr) L r = s.special w L r := by
  cases r <;> rfl

/-! ## The two instructions -/

/-- What an instruction leaves pending: its destinations where they are of variable latency, else nothing (R47). -/
theorem pends_leaves (k : Kind) (s : State) (w : Warp) (e : FEntry) (src dst : List (VReg × Nat)) (h : Issues s w e)
    (ho : OperandsReady w e src dst)
    (hu : ∀ x ∈ k.u.regs, (x.r, x.n) ∈ src ++ dst ∧ (x.src = true → (x.r, x.n) ∈ src)) :
    Pends w e (if k.u.var then (k.u.regs.filter (·.dst)).map (fun x => (x.r, x.n)) else [])
      (if k.u.var then k.u.sd.map (· + 0x80) ++ (k.u.pd.filter (fun p => p.val != 7)).map (fun p => p.val + 0xC0) else [])
      { w with pend := k.leaves w e } := by
  cases hv : k.u.var with
  | false => exact pends_none k w e hv
  | true => exact pends_var k s w e src dst h ho hu hv

/-- How SRD issues: it writes D, and a slow register is a result of variable latency. -/
def srdKind (d : VReg) (r : SpReg) (b : Bool) : Kind :=
  { b := b, tx := false, u := { regs := [⟨1, d, if r.wide then 2 else 1, false, true⟩], var := spSlow r } }

/-- How SRDS issues: once per warp, it writes a scalar register or a pair. -/
def srdsKind (d : SReg) (r : SpReg) (b : Bool) : Kind :=
  { b := b, tx := false, cyc := (1, 1, 1), u := { sd := if r.wide then [d.val, d.val + 1] else [d.val], var := spSlow r } }

/-- SRD of a special register that the warp may read gives each lane of the entry that lane's value. -/
theorem srd_rule (d : VReg) (r : SpReg) (b : Bool) :
    LaneRuleIf (.srd d r b) 4 [] [(d, if r.wide then 2 else 1)] (fun _ w _ _ => spPrivileged r = true → w.handler = true)
      (fun s w _ L l => l.putSpecial w.alloc d r.wide (s.special w L r))
      (if spSlow r then [(d, if r.wide then 2 else 1)] else []) := by
  intro s w e h ho hok
  obtain ⟨L, hL⟩ := exists_lane e.mask h.active
  have hmay := spPermitted (hok L hL)
  have hu : ∀ x ∈ (srdKind d r b).u.regs, (x.r, x.n) ∈ [] ++ [(d, if r.wide then 2 else 1)] ∧ (x.src = true → (x.r, x.n) ∈ []) := by
    simp [srdKind]
  have hpend := pends_leaves (srdKind d r b) s w e _ _ h.toIssues ho hu
  exact issue_perLane (.srd d r b) (srdKind d r b) _ [] _ (fun _ => rfl) hu rfl rfl rfl rfl rfl s w e h ho _ [] (by simpa [srdKind] using hpend)
    (fun L l => .ok (l.putSpecial w.alloc d r.wide (s.special w L r)))
    (by simp only [Warp.setFront_handler, hmay, special_at_issue]; rfl)
    (fun _ _ => Lane.putSpecial_tx _ _ _ _ _) (fun _ _ => rfl)

/-- SRDS of a special register of warp scope that the warp may read gives the scalar destination its value. -/
theorem srds_rule (d : SReg) (r : SpReg) (b : Bool) (s : State) (w : Warp) (e : FEntry) (h : Runs s w e) (hl : r.laneScope = false)
    (hok : spPrivileged r = true → w.handler = true) :
    Completes (.srds d r b) 4 s w e (fun w' => w'.sregs = putScalar w.sregs d r.wide (s.special w (lowestLane e.mask) r) ∧
      ∀ L, w'.lane L = w.lane L) [] (if spSlow r then [0x80 + d.val, 0x81 + d.val] else []) := by
  have hmay := spPermitted hok
  have hu : ∀ x ∈ (srdsKind d r b).u.regs, (x.r, x.n) ∈ [] ++ [] ∧ (x.src = true → (x.r, x.n) ∈ []) := by simp [srdsKind]
  have ho : OperandsReady w e [] [] := fun _ _ => rfl
  have hpend := pends_leaves (srdsKind d r b) s w e [] [] h.toIssues ho hu
  have hmore : (if spSlow r then (if r.wide then [d.val, d.val + 1] else [d.val]).map (· + 0x80) else []) =
      if spSlow r then [0x80 + d.val, 0x81 + d.val] else [] := by
    cases hs : spSlow r with
    | false => rfl
    | true => simp [wide_of_spSlow r hl hs]; omega
  obtain ⟨t, w', hexec, hends, hquiet, hmem, hsregs, hlanes⟩ :=
    issue_completes (.srds d r b) (srdsKind d r b) _ (fun _ => rfl) [] [] hu rfl rfl rfl rfl rfl s w e h ho []
      (if spSlow r then [0x80 + d.val, 0x81 + d.val] else []) (by simpa [srdsKind, hmore] using hpend)
      (Eff.idle s.awake.listening { w.setFront (dropLanes w.front e.mask) with
        sregs := putScalar w.sregs d r.wide (s.special w (lowestLane e.mask) r) })
      (by simp only [Warp.setFront_handler, hl, hmay, special_at_issue, set_scalar_eq_putScalar]; rfl)
      rfl rfl rfl rfl rfl rfl h.noTx rfl rfl rfl rfl rfl rfl rfl
  exact ⟨t, w', hexec, hends, hquiet, hmem, hsregs, fun L => by unfold Warp.lane; rw [hlanes]; rfl⟩

/-! ## The table of R21 -/

/-- A row of the table of R21: the register's width, scope and access, and its value for a lane of a warp. -/
structure SpecialRow (r : SpReg) (wide lane priv : Bool) (v : State → Warp → Nat → DWord) : Prop where
  width : r.wide = wide
  scope : r.laneScope = lane
  access : spPrivileged r = priv
  value : ∀ s w L, s.special w L r = v s w L

theorem SpecialRow.of (r : SpReg) : SpecialRow r r.wide r.laneScope (spPrivileged r) (fun s w L => s.special w L r) :=
  ⟨rfl, rfl, rfl, fun _ _ _ => rfl⟩

/-- tflags of a lane are those of its team. -/
theorem SpecialRow.tflags : SpecialRow .tflags false true false (fun s w L =>
    ((s.team? w.gk (w.lane L).team.toNat).map (fun m => m.tflags.zeroExtend 64)).getD 0) := by
  refine ⟨rfl, rfl, rfl, fun s w L => ?_⟩
  simp only [State.special, State.laneTeam]
  cases s.team? w.gk (w.lane L).team.toNat <;> rfl

section LaneRows
variable {r : SpReg} {wide lane : Bool} {v : State → Warp → Nat → DWord} (b : Bool)

theorem srd_of_row (d : VReg) (h : SpecialRow r wide lane false v) :
    LaneRuleIf (.srd d r b) 4 [] [(d, if wide then 2 else 1)] (fun _ _ _ _ => True)
      (fun s w _ L l => l.putSpecial w.alloc d wide (v s w L))
      (if [SpReg.clock, .time, .txst].contains r then [(d, if wide then 2 else 1)] else []) := by
  obtain ⟨rfl, -, hpriv, hv⟩ := h
  intro s w e hr ho _
  rw [← spSlow_eq_contains]
  simpa only [hv] using srd_rule d r b s w e hr ho (fun _ _ hp => by simp [hpriv] at hp)

theorem srd_of_privileged_row (d : VReg) (h : SpecialRow r wide lane true v) :
    LaneRuleIf (.srd d r b) 4 [] [(d, if wide then 2 else 1)] (fun _ w _ _ => w.handler = true)
      (fun s w _ L l => l.putSpecial w.alloc d wide (v s w L)) := by
  obtain ⟨rfl, -, hpriv, hv⟩ := h
  intro s w e hr ho hok
  simpa only [hv, spSlow_of_privileged r hpriv, Bool.false_eq_true, if_false] using
    srd_rule d r b s w e hr ho (fun L hL _ => hok L hL)

end LaneRows

section ScalarRows
variable {r : SpReg} {wide : Bool} {v : State → Warp → DWord} (b : Bool) (d : SReg) (s : State) (w : Warp) (e : FEntry) (hr : Runs s w e)
include hr

theorem srds_of_row (h : SpecialRow r wide false false (fun s w _ => v s w)) :
    Completes (.srds d r b) 4 s w e (fun w' => w'.sregs = putScalar w.sregs d wide (v s w) ∧ ∀ L, w'.lane L = w.lane L) []
      (if [SpReg.clock, .time, .txst].contains r then [0x80 + d.val, 0x81 + d.val] else []) := by
  obtain ⟨rfl, hscope, hpriv, hv⟩ := h
  rw [← spSlow_eq_contains]
  simpa only [hv] using srds_rule d r b s w e hr hscope (fun hp => by simp [hpriv] at hp)

theorem srds_of_privileged_row (h : SpecialRow r wide false true (fun s w _ => v s w)) (hh : w.handler = true) :
    Completes (.srds d r b) 4 s w e (fun w' => w'.sregs = putScalar w.sregs d wide (v s w) ∧ ∀ L, w'.lane L = w.lane L) := by
  obtain ⟨rfl, hscope, hpriv, hv⟩ := h
  simpa only [hv, spSlow_of_privileged r hpriv, Bool.false_eq_true, if_false] using
    srds_rule d r b s w e hr hscope (fun _ => hh)

end ScalarRows

/-- Settles O32: each row of the table of R21 is the model's, and a register with a row is read as it says. That `time` is exactly
the ticks over 18 on every die is the model's choice (log entry 36). -/
theorem specialRegisterReads : Obligations.SpecialRegisterReads := by
  unfold Obligations.SpecialRegisterReads
  intro x n lanes warps privileged put puts slow one both b
  have hlanes : ∀ r ∈ lanes, SpecialRow r.1 r.2.1 true false r.2.2 := by
    simp only [lanes, List.forall_mem_cons]
    exact ⟨.of .lane, .of .team, .of .tid, .of .gtid, .of .sid, .of .lastsid, .of .fflags, .of .txst, .of .rsp, .tflags, List.forall_mem_nil _⟩
  have hwarps : ∀ r ∈ warps, SpecialRow r.1 r.2.1 false false (fun s w _ => r.2.2 s w) := by
    simp only [warps, List.forall_mem_cons]
    exact ⟨.of .wwid, .of .warp, .of .core, .of .die, .of .dev, .of .grid, .of .depth, .of .clock, .of .time, .of .tagrdy,
      .of .tagerr, .of .wmode, List.forall_mem_nil _⟩
  have hprivileged : ∀ r ∈ privileged, SpecialRow r.1 r.2.1 false true (fun s w _ => r.2.2 s w) := by
    simp only [privileged, List.forall_mem_cons]
    exact ⟨.of .tcause, .of .tepc, .of .tmask, .of .trec, .of .tscratch, .of .asid, List.forall_mem_nil _⟩
  refine ⟨fun d r hr => srd_of_row b d (hlanes r hr), fun d r hr => srd_of_row b d (hwarps r hr),
    fun d r hr => srd_of_privileged_row b d (hprivileged r hr), fun d s w e h => ⟨fun r hr => ?_, fun hh r hr => ?_⟩⟩
  · exact srds_of_row b d s w e h (hwarps r hr)
  · exact srds_of_privileged_row b d s w e h (hprivileged r hr) hh

end Sys2Proof.Machine
end

section
/-! PROOFS. What the operations on values of the integer instructions compute (R126 to R137), in the terms of their tables. -/
namespace Sys2Proof.Machine

open Sys2Proof

/-! ## Arithmetic (R126 to R128) -/

theorem mulhiI_eq (x y : Word) : mulhiI x y = BitVec.ofInt 32 (x.toInt * y.toInt / 2 ^ 32) := by
  apply BitVec.eq_of_toNat_eq
  simp only [mulhiI, trunc, BitVec.toNat_ofNat, BitVec.toNat_ofInt]
  generalize x.toInt * y.toInt = p
  omega

theorem absW_eq (x : Word) : absW x = BitVec.ofInt 32 x.toInt.natAbs := by
  unfold absW
  rw [BitVec.msb_eq_toInt]
  split <;> rename_i h <;> rw [decide_eq_true_eq] at h
  · rw [Int.ofNat_natAbs_of_nonpos h.le, BitVec.ofInt_neg, BitVec.ofInt_toInt]
  · rw [Int.natAbs_of_nonneg (not_lt.1 h), BitVec.ofInt_toInt]

theorem neg_eq_ofInt {n : Nat} (x : BitVec n) : -x = BitVec.ofInt n (-x.toInt) := by
  rw [BitVec.ofInt_neg, BitVec.ofInt_toInt]

theorem minI_eq {n : Nat} (x y : BitVec n) : minI x y = if x.toInt ≤ y.toInt then x else y := by
  simp only [minI, ← not_lt, ite_not]

theorem minN_eq {n : Nat} (x y : BitVec n) : minN x y = if x.toNat ≤ y.toNat then x else y := by
  simp only [minN, ← not_lt, ite_not]

/-- On equal values either operand is the larger one. -/
theorem ite_lt_eq_ite_le {α β : Type} [LinearOrder β] {f : α → β} (hf : f.Injective) (x y : α) :
    (if f x < f y then y else x) = if f x ≤ f y then y else x := by
  rcases lt_trichotomy (f x) (f y) with h | h | h
  · rw [if_pos h, if_pos h.le]
  · rw [hf h, ite_self, ite_self]
  · rw [if_neg h.not_gt, if_neg h.not_ge]

theorem maxI_eq {n : Nat} (x y : BitVec n) : maxI x y = if x.toInt ≤ y.toInt then y else x :=
  ite_lt_eq_ite_le (fun _ _ => BitVec.eq_of_toInt_eq) x y

theorem maxN_eq {n : Nat} (x y : BitVec n) : maxN x y = if x.toNat ≤ y.toNat then y else x :=
  ite_lt_eq_ite_le (fun _ _ => BitVec.eq_of_toNat_eq) x y

theorem carry_in (b : Bool) : b.toNat = if b then 1 else 0 := Bool.cond_eq_ite b 1 0

/-- A sum of two words and a carry in is below twice 2^32, so its carry out is 0 or 1. -/
theorem carry_out (x y : Word) (b : Bool) :
    decide (2 ^ 32 ≤ x.toNat + y.toNat + if b then 1 else 0) = decide ((x.toNat + y.toNat + if b then 1 else 0) / 2 ^ 32 = 1) := by
  have hx := x.isLt
  have hy := y.isLt
  rw [decide_eq_decide]
  split <;> omega

/-! ## Compares (R130) -/

theorem bne_eq_decide_ne {n : Nat} (x y : BitVec n) : (x != y) = decide (x ≠ y) := by rw [bne, beq_eq_decide, decide_not]

/-! ## Counts and reversal of bits (R131) -/

theorem popCount_eq (x n : Nat) : popCount x n = (List.range n).countP (fun i => x.testBit i) := by
  induction n with
  | zero => rfl
  | succ n ih => rw [popCount, ih, List.range_succ, List.countP_append, List.countP_singleton, Nat.add_comm]

theorem leadZeros_eq (x n : Nat) (h : x < 2 ^ n) : leadZeros x n = if x = 0 then n else n - 1 - Nat.log2 x := by
  induction n with
  | zero => rw [if_pos (by simpa using h)]; rfl
  | succ n ih =>
    rw [leadZeros]
    by_cases hx : x < 2 ^ n
    · rw [Nat.testBit_lt_two_pow hx, ih hx, if_neg Bool.false_ne_true]
      split
      · omega
      · rename_i h0
        have := (Nat.log2_lt h0).2 hx
        omega
    · have hx := not_lt.1 hx
      have h0 : x ≠ 0 := by have := Nat.two_pow_pos n; omega
      rw [if_pos (Nat.testBit_of_two_pow_le_and_two_pow_add_one_gt hx h), if_neg h0, (Nat.log2_eq_iff h0).2 ⟨hx, h⟩]
      omega

theorem clz_eq (x : Word) : BitVec.ofNat 32 (leadZeros x.toNat 32) = BitVec.ofNat 32 (if x = 0 then 32 else 31 - Nat.log2 x.toNat) := by
  have h0 : x.toNat = 0 ↔ x = 0 := BitVec.toNat_inj (y := 0)
  simp only [leadZeros_eq x.toNat 32 x.isLt, h0]

/-- The sum that `bitRev` builds, after the low `n` bits of the word. -/
def reversedLow (x : Word) (n : Nat) : Nat := (List.range n).foldl (fun r i => if x.getLsbD i then r + 2 ^ (31 - i) else r) 0

theorem reversedLow_succ (x : Word) (n : Nat) :
    reversedLow x (n + 1) = if x.getLsbD n then reversedLow x n + 2 ^ (31 - n) else reversedLow x n := by
  unfold reversedLow
  rw [List.range_succ, List.foldl_append]
  rfl

theorem reversedLow_dvd (x : Word) (n : Nat) (h : n ≤ 32) : 2 ^ (32 - n) ∣ reversedLow x n := by
  induction n with
  | zero => exact dvd_zero _
  | succ n ih =>
    have hle : 2 ^ (32 - (n + 1)) ∣ reversedLow x n := (Nat.pow_dvd_pow 2 (by omega)).trans (ih (by omega))
    rw [reversedLow_succ]
    split
    · exact hle.add (by rw [show 32 - (n + 1) = 31 - n by omega])
    · exact hle

/-- Bits 31 down to 32 - n hold the low `n` bits of the word; the next one is added below them, so nothing carries. -/
theorem testBit_reversedLow (x : Word) (n j : Nat) (h : n ≤ 32) :
    (reversedLow x n).testBit j = (decide (j < 32 ∧ 32 ≤ n + j) && x.getLsbD (31 - j)) := by
  induction n with
  | zero => simp [reversedLow]
  | succ n ih =>
    have ih := ih (by omega)
    obtain ⟨q, hq⟩ := reversedLow_dvd x n (by omega)
    have hadd : reversedLow x n + 2 ^ (31 - n) = reversedLow x n ||| 2 ^ (31 - n) := by
      rw [hq]
      exact Nat.two_pow_add_eq_or_of_lt (Nat.pow_lt_pow_right (by decide) (by omega)) q
    rw [reversedLow_succ]
    by_cases hj : j = 31 - n
    · have hn : 31 - j = n := by omega
      have h0 : (reversedLow x n).testBit j = false := by rw [ih, decide_eq_false (by omega), Bool.false_and]
      rw [decide_eq_true (by omega), hn, Bool.true_and]
      cases hb : x.getLsbD n with
      | false => simpa using h0
      | true => rw [if_pos rfl, hadd, Nat.testBit_or, hj, Nat.testBit_two_pow_self, Bool.or_true]
    · have hd : decide (j < 32 ∧ 32 ≤ n + 1 + j) = decide (j < 32 ∧ 32 ≤ n + j) := by rw [decide_eq_decide]; omega
      rw [hd, ← ih]
      split
      · rw [hadd, Nat.testBit_or, Nat.testBit_two_pow_of_ne (Ne.symm hj), Bool.or_false]
      · rfl

theorem bitRev_eq (x : Word) : bitRev x = x.reverse := by
  apply BitVec.eq_of_getLsbD_eq
  intro i hi
  have h : (bitRev x).getLsbD i = (reversedLow x 32).testBit i := by
    rw [show bitRev x = BitVec.ofNat 32 (reversedLow x 32) from rfl, BitVec.getLsbD_ofNat, decide_eq_true hi, Bool.true_and]
  rw [h, testBit_reversedLow x 32 i le_rfl, BitVec.getLsbD_reverse, BitVec.getMsbD_eq_getLsbD, decide_eq_true hi,
    decide_eq_true (by omega : i < 32 ∧ 32 ≤ 32 + i)]

/-! ## Shifts (R131, R132) -/

theorem rotlW_eq (x : Word) (n : Nat) (h : n < 32) : rotlW x n = (x <<< n) ||| (x >>> (32 - n)) := by
  rw [rotlW, BitVec.rotateLeft_def, Nat.mod_eq_of_lt h]

theorem rotrW_eq (x : Word) (n : Nat) (h : n < 32) : rotrW x n = (x >>> n) ||| (x <<< (32 - n)) := by
  rw [rotrW, BitVec.rotateRight_def, Nat.mod_eq_of_lt h]

theorem shiftLeft_eq_mul_ofNat {n : Nat} (x : BitVec n) (k : Nat) : x <<< k = x * BitVec.ofNat n (2 ^ k) := by
  apply BitVec.eq_of_toNat_eq
  rw [BitVec.toNat_shiftLeft, BitVec.toNat_mul, BitVec.toNat_ofNat, Nat.shiftLeft_eq, Nat.mul_mod_mod]

theorem sh5_lt (y : Word) : sh5 y < 32 := Nat.mod_lt _ (by decide)

/-- `fshl` gives the high word of the pair shifted left. -/
theorem funnelHigh_eq (x : DWord) (n : Nat) : (x <<< n).extractLsb' 32 32 = BitVec.ofNat 32 (x.toNat * 2 ^ n / 2 ^ 32) := by
  apply BitVec.eq_of_toNat_eq
  rw [BitVec.extractLsb'_toNat, BitVec.toNat_shiftLeft, BitVec.toNat_ofNat, Nat.shiftLeft_eq, Nat.shiftRight_eq_div_pow]
  generalize x.toNat * 2 ^ n = p
  omega

/-- `fshr` gives the low word of the pair shifted right. -/
theorem funnelLow_eq (x : DWord) (n : Nat) : (x >>> n).extractLsb' 0 32 = BitVec.ofNat 32 (x.toNat / 2 ^ n) := by
  apply BitVec.eq_of_toNat_eq
  rw [BitVec.extractLsb'_toNat, BitVec.toNat_ushiftRight, BitVec.toNat_ofNat, Nat.shiftRight_zero, Nat.shiftRight_eq_div_pow]

/-! ## Bit fields and permute (R133) -/

theorem bits_eq (x hi lo : Nat) : bits x hi lo = x / 2 ^ lo % 2 ^ (hi + 1 - lo) := by rw [bits, Nat.shiftRight_eq_div_pow]

theorem fieldPos_eq (y : Word) : bits y.toNat 4 0 = y.toNat % 32 := rfl

theorem fieldLen_eq (y : Word) : fieldLen y = min (y.toNat / 2 ^ 8 % 64) (32 - y.toNat % 32) := by
  rw [fieldLen, fieldPos_eq, bits_eq]
  rfl

theorem bfeNW_eq (x y : Word) :
    bfeNW x y = BitVec.ofNat 32 (x.toNat / 2 ^ (y.toNat % 32) % 2 ^ min (y.toNat / 2 ^ 8 % 64) (32 - y.toNat % 32)) := by
  rw [bfeNW, fieldLen_eq, fieldPos_eq, Nat.shiftRight_eq_div_pow]

theorem bfeIW_eq (x y : Word) :
    let len := min (y.toNat / 2 ^ 8 % 64) (32 - y.toNat % 32)
    let field := x.toNat / 2 ^ (y.toNat % 32) % 2 ^ len
    bfeIW x y = if len = 0 then 0 else BitVec.ofInt 32 (if field < 2 ^ (len - 1) then (field : Int) else (field : Int) - 2 ^ len) := by
  rw [bfeIW, fieldLen_eq, fieldPos_eq, Nat.shiftRight_eq_div_pow]
  rfl

theorem bfiW_eq (z x y : Word) :
    let pos := y.toNat % 32
    let m := BitVec.ofNat 32 (2 ^ min (y.toNat / 2 ^ 8 % 64) (32 - pos) - 1) <<< pos
    bfiW z x y = (z &&& ~~~m) ||| ((x <<< pos) &&& m) := by
  intro pos m
  have hm : BitVec.ofNat 32 ((2 ^ fieldLen y - 1) * 2 ^ bits y.toNat 4 0) = m := by
    rw [fieldLen_eq, fieldPos_eq, BitVec.ofNat_mul, ← shiftLeft_eq_mul_ofNat]
  rw [← hm]
  rfl

/-- Byte `k` of what `prmt` gives, `below` being byte k - 1. -/
def permutedByte (x : DWord) (y : Word) (k : Nat) (below : Byte) : Byte :=
  let v := y.toNat / 2 ^ (4 * k) % 16
  if v ≤ 7 then x.extractLsb' (8 * v) 8 else if v = 9 then 0xFF else if v = 10 ∧ 0 < k ∧ below.msb = true then 0xFF else 0

theorem prmtByte_none_eq (x : DWord) (y : Word) (below : Byte) : prmtByte x (bits y.toNat 3 0) none = permutedByte x y 0 below := by
  simp [prmtByte, permutedByte, bits_eq]

theorem prmtByte_some_eq (x : DWord) (y : Word) (k : Nat) (below : Byte) (h : 0 < k) :
    prmtByte x (bits y.toNat (4 * k + 3) (4 * k)) (some below) = permutedByte x y k below := by
  have h16 : 4 * k + 3 + 1 - 4 * k = 4 := by omega
  simp only [prmtByte, permutedByte, bits_eq, h16, h, true_and, ite_and]
  rfl

theorem prmtW_eq (x : DWord) (y : Word) :
    let b0 := permutedByte x y 0 0
    let b1 := permutedByte x y 1 b0
    let b2 := permutedByte x y 2 b1
    prmtW x y = permutedByte x y 3 b2 ++ b2 ++ b1 ++ b0 := by
  intro b0 b1 b2
  have h0 : prmtByte x (bits y.toNat 3 0) none = b0 := prmtByte_none_eq x y 0
  have h1 : prmtByte x (bits y.toNat 7 4) (some b0) = b1 := prmtByte_some_eq x y 1 b0 (by decide)
  have h2 : prmtByte x (bits y.toNat 11 8) (some b1) = b2 := prmtByte_some_eq x y 2 b1 (by decide)
  have h3 : prmtByte x (bits y.toNat 15 12) (some b2) = permutedByte x y 3 b2 := prmtByte_some_eq x y 3 b2 (by decide)
  simp only [prmtW, h0, h1, h2, h3]

/-! ## Immediates, addresses and index registers (R136 to R138) -/

/-- `lih` keeps the low 15 bits under its immediate. -/
theorem lih_eq (j : BitVec 17) (x : Word) : j ++ x.extractLsb' 0 15 = BitVec.ofNat 32 (j.toNat * 2 ^ 15 + x.toNat % 2 ^ 15) := by
  apply BitVec.eq_of_toNat_eq
  have hj := j.isLt
  have hlow : x.toNat % 2 ^ 15 < 2 ^ 15 := Nat.mod_lt _ (by decide)
  rw [BitVec.toNat_append, BitVec.extractLsb'_toNat, Nat.shiftRight_zero, ← Nat.shiftLeft_add_eq_or_of_lt hlow, Nat.shiftLeft_eq,
    BitVec.toNat_ofNat]
  omega

/-- `lea` adds the sign-extended index, shifted, to the base. -/
theorem lea_eq (x : DWord) (y : Word) (n : Nat) :
    x + (y.signExtend 64 <<< n) = BitVec.ofInt 64 (x.toNat + y.toInt * 2 ^ n) := by
  have hshift : y.signExtend 64 <<< n = BitVec.ofInt 64 (y.toInt * 2 ^ n) := by
    rw [BitVec.ofInt_mul, show (2 : Int) ^ n = ((2 ^ n : Nat) : Int) by push_cast; rfl, BitVec.ofInt_natCast,
      ← shiftLeft_eq_mul_ofNat]
    rfl
  rw [hshift, BitVec.ofInt_add, BitVec.ofInt_natCast, BitVec.ofNat_toNat, BitVec.setWidth_eq]

/-- `xset` keeps the low 16 bits of the sum. -/
theorem xset_eq (x : Word) (i : BitVec 10) :
    (x + i.signExtend 32).extractLsb' 0 16 = BitVec.ofInt 16 (x.toInt + i.toInt) := by
  apply BitVec.eq_of_toNat_eq
  rw [BitVec.extractLsb'_toNat, BitVec.toNat_add, show i.signExtend 32 = BitVec.ofInt 32 i.toInt from rfl, BitVec.toNat_ofInt,
    BitVec.toNat_ofInt, Nat.shiftRight_zero, BitVec.toInt_eq_toNat_cond x]
  generalize i.toInt = k
  split <;> omega

end Sys2Proof.Machine
end

section
/-! PROOFS. Integer, compare, logic, field, immediate, index and scalar instructions (R126 to R143): each arm of `exec` has one of the
shared shapes, and the operation it hands to the shape is that of its table. -/
namespace Sys2Proof.Machine

open Sys2Proof

/-! ## Tables of instructions of one shape -/

/-- Each row of a table of instructions and operations is an instruction of the shape with its operation. -/
def Implements {α : Type} (shape : α → State → Out) (t : List (Instr × α)) : Prop :=
  ∀ x ∈ t, ∀ s, exec x.1 s = shape x.2 s

theorem Implements.nil {α : Type} {shape : α → State → Out} : Implements shape [] := List.forall_mem_nil _

/-- A row whose operation equals the one that the instruction's arm hands to the shape. -/
theorem Implements.row {α : Type} {shape : α → State → Out} {i : Instr} {f g : α} {t : List (Instr × α)} (hv : g = f)
    (he : ∀ s, exec i s = shape g s) (ht : Implements shape t) : Implements shape ((i, f) :: t) :=
  List.forall_mem_cons.2 ⟨hv ▸ he, ht⟩

/-- A row whose operation is what the arm hands to the shape, by its definition. -/
theorem Implements.arm {α : Type} {shape : α → State → Out} {i : Instr} {f : α} {t : List (Instr × α)}
    (he : ∀ s, exec i s = shape f s) (ht : Implements shape t) : Implements shape ((i, f) :: t) :=
  .row rfl he ht

/-- An instruction that issues for each lane on that lane alone, without a trap, with the operands it declares. -/
theorem issue_laneRule {i : Instr} {u : Uses} {cyc : Nat × Nat × Nat} {b : Bool} {g : Warp → Nat → Lane → Lane}
    {src dst : List (VReg × Nat)}
    (he : ∀ s, exec i s = issue { b := b, u := u, cyc := cyc } (fun c s w => Eff.perLane c s w (fun L l => .ok (g w L l))) s)
    (hu : ∀ x ∈ u.regs, (x.r, x.n) ∈ src ++ dst ∧ (x.src = true → (x.r, x.n) ∈ src)) (hvar : u.var = false)
    (hfront : ∀ w fr L l, g (Warp.setFront w fr) L l = g w L l) (htx : ∀ w L l, (g w L l).tx = l.tx) : LaneRule i 4 src dst g :=
  laneRule i _ _ src dst g he hu (fun _ _ _ => rfl) hfront htx rfl rfl rfl rfl rfl hvar

/-- A rule on registers holds with any function that gives the same lanes. -/
theorem LaneRule.of_eq {i : Instr} {len : Nat} {src dst : List (VReg × Nat)} {g f : Warp → Nat → Lane → Lane}
    (h : LaneRule i len src dst g) (hv : ∀ w L l, g w L l = f w L l) : LaneRule i len src dst f := by
  rwa [show g = f from funext fun w => funext₂ (hv w)] at h

section Tables
variable {b : Bool} {d a c : VReg} {p : PReg} {sd sa sc : SReg}

theorem lane3_table {t : List (Instr × (Word → Word → Word))} (h : Implements (lane3 b d a c) t) :
    ∀ x ∈ t, LaneRule x.1 4 [(a, 1), (c, 1)] [(d, 1)] (fun w _ l => l.setV w.alloc d (x.2 (l.v w.alloc a) (l.v w.alloc c))) :=
  fun x hx => lane3_rule x.1 b d a c x.2 (h x hx)

theorem lane2_table {t : List (Instr × (Word → Word))} (h : Implements (lane2 b d a) t) :
    ∀ x ∈ t, LaneRule x.1 4 [(a, 1)] [(d, 1)] (fun w _ l => l.setV w.alloc d (x.2 (l.v w.alloc a))) :=
  fun x hx => lane2_rule x.1 b d a x.2 (h x hx)

/-- A row on pairs, where each instruction takes cycles of its own. -/
theorem lane3P_row {i : Instr} {f g : DWord → DWord → DWord} {cyc : Nat × Nat × Nat} {t : List (Instr × (DWord → DWord → DWord))}
    (hv : g = f) (he : ∀ s, exec i s = lane3P b d a c cyc g s)
    (ht : ∀ x ∈ t, LaneRule x.1 4 [(a, 2), (c, 2)] [(d, 2)] (fun w _ l => l.setVP w.alloc d (x.2 (l.vp w.alloc a) (l.vp w.alloc c)))) :
    ∀ x ∈ (i, f) :: t, LaneRule x.1 4 [(a, 2), (c, 2)] [(d, 2)]
      (fun w _ l => l.setVP w.alloc d (x.2 (l.vp w.alloc a) (l.vp w.alloc c))) :=
  List.forall_mem_cons.2 ⟨lane3P_rule i b d a c cyc f (hv ▸ he), ht⟩

theorem lanePred_table {t : List (Instr × (Word → Word → Bool))} (h : Implements (lanePred b p a c) t) :
    ∀ x ∈ t, LaneRule x.1 4 [(a, 1), (c, 1)] [] (fun w _ l => l.setPred p (x.2 (l.v w.alloc a) (l.v w.alloc c))) :=
  fun x hx => lanePred_rule x.1 b p a c x.2 (h x hx)

theorem lanePredP_table {t : List (Instr × (DWord → DWord → Bool))} (h : Implements (lanePredP b p a c) t) :
    ∀ x ∈ t, LaneRule x.1 4 [(a, 2), (c, 2)] [] (fun w _ l => l.setPred p (x.2 (l.vp w.alloc a) (l.vp w.alloc c))) :=
  fun x hx => lanePredP_rule x.1 b p a c x.2 (h x hx)

theorem lanePairA_table {t : List (Instr × (DWord → Word → Word))} (h : Implements (lanePairA b d a c) t) :
    ∀ x ∈ t, LaneRule x.1 4 [(a, 2), (c, 1)] [(d, 1)] (fun w _ l => l.setV w.alloc d (x.2 (l.vp w.alloc a) (l.v w.alloc c))) :=
  fun x hx => issue_laneRule (h x hx) (by simp) rfl (fun _ _ _ _ => rfl) (fun _ _ _ => Lane.setV_tx _ _ _ _)

theorem scalarPred_table {t : List (Instr × (Word → Word → Bool))} (h : Implements (scalarPred b p sa sc) t) :
    ∀ x ∈ t, LaneRule x.1 4 [] [] (fun w _ l => l.setPred p (x.2 (w.sv sa.val) (w.sv sc.val))) :=
  fun x hx => scalarPred_rule x.1 b p sa sc x.2 (h x hx)

end Tables

/-! ## Integer arithmetic (R126 to R128) -/

section Integer
variable (d a c : VReg) (b : Bool)

theorem neg64_rule : LaneRule (.neg64 d a b) 4 [(a, 2)] [(d, 2)] (fun w _ l => l.setVP w.alloc d (-(l.vp w.alloc a))) :=
  issue_laneRule (fun _ => rfl) (by simp [useDA]) rfl (fun _ _ _ _ => rfl) (fun _ _ _ => Lane.setVP_tx _ _ _ _)

theorem addc_rule : LaneRule (.addc d a c b) 4 [(a, 1), (c, 1)] [(d, 1)] (fun w _ l =>
    let t := (l.v w.alloc a).toNat + (l.v w.alloc c).toNat + (l.pred 6).toNat
    (l.setV w.alloc d (BitVec.ofNat 32 t)).setPred 6 (decide (2 ^ 32 ≤ t))) :=
  issue_laneRule (fun _ => rfl) (by simp [useDAC, useDA]) rfl (fun _ _ _ _ => rfl) (fun _ _ _ => by simp)

theorem subb_rule : LaneRule (.subb d a c b) 4 [(a, 1), (c, 1)] [(d, 1)] (fun w _ l =>
    let t : Int := (l.v w.alloc a).toNat - (l.v w.alloc c).toNat - (l.pred 6).toNat
    (l.setV w.alloc d (BitVec.ofInt 32 t)).setPred 6 (decide (t < 0))) :=
  issue_laneRule (fun _ => rfl) (by simp [useDAC, useDA]) rfl (fun _ _ _ _ => rfl) (fun _ _ _ => by simp)

theorem madI64_rule : LaneRule (.madI64 d a c b) 4 [(d, 2), (a, 2), (c, 2)] [] (fun w _ l =>
    l.setVP w.alloc d (l.vp w.alloc d + l.vp w.alloc a * l.vp w.alloc c)) :=
  issue_laneRule (fun _ => rfl) (by simp [useDDAC]) rfl (fun _ _ _ _ => rfl) (fun _ _ _ => Lane.setVP_tx _ _ _ _)

end Integer

/-- Settles O1: each instruction has the rule of its shape, with the value of its row of R126, R127 or R128. -/
theorem integerResults : Obligations.IntegerResults := by
  unfold Obligations.IntegerResults
  refine ⟨fun d a c b => ⟨?words, ?unary, ?pairs, ?neg64⟩, fun d a c b => ⟨?addc, ?subb, ?mad32, madI64_rule d a c b⟩⟩
  case words =>
    exact lane3_table <| .arm (fun _ => rfl) <| .arm (fun _ => rfl) <| .arm (fun _ => rfl) <|
      .row (funext₂ mulhiI_eq) (fun _ => rfl) <| .arm (fun _ => rfl) <|
      .row (funext₂ minI_eq) (fun _ => rfl) <| .row (funext₂ maxI_eq) (fun _ => rfl) <|
      .row (funext₂ minN_eq) (fun _ => rfl) <| .row (funext₂ maxN_eq) (fun _ => rfl) .nil
  case unary =>
    exact lane2_table <| .row (funext absW_eq) (fun _ => rfl) <| .row (funext neg_eq_ofInt) (fun _ => rfl) .nil
  case pairs =>
    exact lane3P_row rfl (fun _ => rfl) <| lane3P_row rfl (fun _ => rfl) <| lane3P_row rfl (fun _ => rfl) <|
      lane3P_row (funext₂ minI_eq) (fun _ => rfl) <| lane3P_row (funext₂ maxI_eq) (fun _ => rfl) <|
      lane3P_row (funext₂ minN_eq) (fun _ => rfl) <| lane3P_row (funext₂ maxN_eq) (fun _ => rfl) (List.forall_mem_nil _)
  case neg64 => exact (neg64_rule d a b).of_eq fun w _ l => by rw [neg_eq_ofInt]
  case addc => exact (addc_rule d a c b).of_eq fun w _ l => by simp only [carry_in, carry_out]
  case subb =>
    exact (subb_rule d a c b).of_eq fun w _ l => by
      simp only [carry_in, Nat.cast_ite, Nat.cast_one, Nat.cast_zero]
  case mad32 => exact lane4_rule _ b d a c (fun z x y => z + x * y) fun _ => rfl

/-! ## Compares, logic, shifts, bit fields, permute and select (R130 to R134) -/

theorem sel_rule (p : PReg) (d a c : VReg) (b : Bool) : LaneRule (.sel p d a c b) 4 [(a, 1), (c, 1)] [(d, 1)] (fun w _ l =>
    l.setV w.alloc d (if l.pred p then l.v w.alloc a else l.v w.alloc c)) :=
  issue_laneRule (fun _ => rfl) (by simp [useDAC, useDA]) rfl (fun _ _ _ _ => rfl) (fun _ _ _ => Lane.setV_tx _ _ _ _)

/-- Settles O2: each instruction has the rule of its shape, with the value of its row of R130 to R134. -/
theorem compareLogicAndFieldResults : Obligations.CompareLogicAndFieldResults := by
  unfold Obligations.CompareLogicAndFieldResults
  refine ⟨fun d a c b => ⟨?cmp, ?cmp64⟩, fun d a c n b => ⟨?binary, ?unary⟩, ?fields⟩
  case cmp =>
    exact lanePred_table <| .arm (fun _ => rfl) <| .row (funext₂ bne_eq_decide_ne) (fun _ => rfl) <| .arm (fun _ => rfl) <|
      .arm (fun _ => rfl) <| .arm (fun _ => rfl) <| .arm (fun _ => rfl) <|
      .row (funext₂ fun x y => bne_eq_decide_ne (x &&& y) 0) (fun _ => rfl) .nil
  case cmp64 =>
    exact lanePredP_table <| .arm (fun _ => rfl) <| .row (funext₂ bne_eq_decide_ne) (fun _ => rfl) <| .arm (fun _ => rfl) <|
      .arm (fun _ => rfl) <| .arm (fun _ => rfl) <| .arm (fun _ => rfl) <|
      .row (funext₂ fun x y => bne_eq_decide_ne (x &&& y) 0) (fun _ => rfl) .nil
  case binary =>
    exact lane3_table <| .arm (fun _ => rfl) <| .arm (fun _ => rfl) <| .arm (fun _ => rfl) <| .arm (fun _ => rfl) <|
      .arm (fun _ => rfl) <| .arm (fun _ => rfl) <| .arm (fun _ => rfl) <|
      .row (funext₂ fun x y => rotlW_eq x (sh5 y) (sh5_lt y)) (fun _ => rfl) <|
      .row (funext₂ fun x y => rotrW_eq x (sh5 y) (sh5_lt y)) (fun _ => rfl) .nil
  case unary =>
    exact lane2_table <| .arm (fun _ => rfl) <|
      .row (funext fun x => congrArg (BitVec.ofNat 32) (popCount_eq x.toNat 32)) (fun _ => rfl) <|
      .row (funext clz_eq) (fun _ => rfl) <| .row (funext bitRev_eq) (fun _ => rfl) <| .arm (fun _ => rfl) <| .arm (fun _ => rfl) <|
      .arm (fun _ => rfl) <| .row (funext fun x => rotlW_eq x n.toNat n.isLt) (fun _ => rfl) .nil
  case fields =>
    intro p d a c b pos len field m byte permute
    refine ⟨?extract, ?insert, ?pairs, sel_rule p d a c b⟩
    case extract => exact lane3_table <| .row (funext₂ bfeNW_eq) (fun _ => rfl) <| .row (funext₂ bfeIW_eq) (fun _ => rfl) .nil
    case insert =>
      exact (lane4_rule _ b d a c bfiW fun _ => rfl).of_eq fun w _ l => congrArg (l.setV w.alloc d) (bfiW_eq _ _ _)
    case pairs =>
      exact lanePairA_table <| .row (funext₂ fun x y => funnelHigh_eq x (sh5 y)) (fun _ => rfl) <|
        .row (funext₂ fun x y => funnelLow_eq x (sh5 y)) (fun _ => rfl) <| .row (funext₂ prmtW_eq) (fun _ => rfl) .nil

/-! ## Immediates, addresses and index registers (R135 to R139) -/

section Immediates
variable (d a c : VReg) (i : BitVec 10) (j : BitVec 17) (sh : BitVec 3) (x : XReg) (b : Bool)

theorem li_rule : LaneRule (.li d j b) 4 [] [(d, 1)] (fun w _ l => l.setV w.alloc d (j.signExtend 32)) :=
  issue_laneRule (fun _ => rfl) (by simp) rfl (fun _ _ _ _ => rfl) (fun _ _ _ => Lane.setV_tx _ _ _ _)

theorem lih_rule : LaneRule (.lih d j b) 4 [(d, 1)] [] (fun w _ l =>
    l.setV w.alloc d (j ++ (l.v w.alloc d).extractLsb' 0 15)) :=
  issue_laneRule (fun _ => rfl) (by simp) rfl (fun _ _ _ _ => rfl) (fun _ _ _ => Lane.setV_tx _ _ _ _)

theorem lea_rule : LaneRule (.lea d a c sh b) 4 [(a, 2), (c, 1)] [(d, 2)] (fun w _ l =>
    l.setVP w.alloc d (l.vp w.alloc a + ((l.v w.alloc c).signExtend 64 <<< sh.toNat))) :=
  issue_laneRule (fun _ => rfl) (by simp) rfl (fun _ _ _ _ => rfl) (fun _ _ _ => Lane.setVP_tx _ _ _ _)

theorem leai_rule : LaneRule (.leai d a i b) 4 [(a, 2)] [(d, 2)] (fun w _ l =>
    l.setVP w.alloc d (l.vp w.alloc a + i.signExtend 64)) :=
  issue_laneRule (fun _ => rfl) (by simp [useDA]) rfl (fun _ _ _ _ => rfl) (fun _ _ _ => Lane.setVP_tx _ _ _ _)

theorem xset_rule : LaneRule (.xset x a i b) 4 [(a, 1)] [] (fun w _ l =>
    { l with xr := l.xr.set x.val ((l.v w.alloc a + i.signExtend 32).extractLsb' 0 16) }) :=
  issue_laneRule (fun _ => rfl) (by simp) rfl (fun _ _ _ _ => rfl) (fun _ _ _ => rfl)

theorem xget_rule : LaneRule (.xget d x b) 4 [] [(d, 1)] (fun w _ l =>
    l.setV w.alloc d ((l.xr.getD x.val 0).signExtend 32)) :=
  issue_laneRule (fun _ => rfl) (by simp) rfl (fun _ _ _ _ => rfl) (fun _ _ _ => Lane.setV_tx _ _ _ _)

end Immediates

/-- Settles O3: each instruction has the rule of its shape, with the value that R135 to R139 give. -/
theorem immediateAddressIndexResults : Obligations.ImmediateAddressIndexResults := by
  unfold Obligations.ImmediateAddressIndexResults
  intro d a c i j sh x b
  refine ⟨?immediates, li_rule d j b, ?lih, ?lea, leai_rule d a i b, ?xset, xget_rule d x b⟩
  case immediates =>
    exact lane2_table <| .arm (fun _ => rfl) <| .arm (fun _ => rfl) <| .arm (fun _ => rfl) <| .arm (fun _ => rfl) .nil
  case lih => exact (lih_rule d j b).of_eq fun w _ l => by rw [lih_eq]
  case lea => exact (lea_rule d a c sh b).of_eq fun w _ l => by rw [lea_eq]
  case xset => exact (xset_rule a i x b).of_eq fun w _ l => by rw [xset_eq]

/-! ## Scalars (R140 to R143) -/

section Scalars
variable (d a : SReg) (v : VReg) (i : BitVec 10) (j : BitVec 17) (b : Bool)

/-- An instruction that writes S(D) once per warp and reads no lane. -/
theorem issue_scalarRule {n : Instr} {ss : List Nat} {f : Warp → Word}
    (he : ∀ s, exec n s = issue { b := b, u := { ss := ss, sd := [d.val] }, cyc := (1, 1, 1), tx := false }
      (fun _ s w => { s := s, w := w.setS d.val (f w) }) s)
    (hfront : ∀ w fr, f (Warp.setFront w fr) = f w) : ScalarRule n [] [] (fun w _ => w.sregs.set d.val (f w)) :=
  scalarRule n _ _ [] [] _ he rfl (by simp) (fun _ _ _ _ _ _ _ _ => by rw [hfront]; rfl) rfl rfl rfl rfl rfl rfl

theorem s2v_rule : LaneRule (.s2v v a b) 4 [] [(v, 1)] (fun w _ l => l.setV w.alloc v (w.sv a.val)) :=
  issue_laneRule (fun _ => rfl) (by simp) rfl (fun _ _ _ _ => rfl) (fun _ _ _ => Lane.setV_tx _ _ _ _)

/-- What `v2s` checks of its operand before it looks at a lane: a direct field, which is alike in every lane (R143). -/
def v2sField (v : VReg) : List (VReg × Nat) :=
  match v with
  | .v k => [(.v k, 1)]
  | _ => []

theorem v2sField_ready (w : Warp) (e : FEntry) (l : Lane) (h : l.ready w.alloc [(v, 1)] [] = true) : OperandsReady w e [] (v2sField v) := by
  intro L _
  cases v with
  | v k => simp_all [Lane.ready, v2sField, VReg.inOrder]
  | z => rfl
  | ix k => rfl

/-- How `v2s` issues: once per warp; a direct field is declared, to be checked in its place, and not as a source of every lane. -/
def v2sKind : Kind :=
  { b := b, cyc := (1, 1, 1), tx := false,
    u := match v with
      | .v _ => { regs := [⟨2, v, 1, false, false⟩], sd := [d.val] }
      | _ => { sd := [d.val] } }

theorem v2sKind_regs : ∀ x ∈ (v2sKind d v b).u.regs, (x.r, x.n) ∈ [] ++ v2sField v ∧ (x.src = true → (x.r, x.n) ∈ []) := by
  cases v <;> simp [v2sKind, v2sField]

theorem v2sKind_var : (v2sKind d v b).u.var = false := by cases v <;> rfl

/-- The operand of `v2s` as its lowest active lane checks and reads it. -/
def v2sRead : Kind := { b := b, u := { regs := [⟨2, v, 1, true, false⟩] } }

/-- An operand in order in the lowest active lane passes the checks there, and nothing is corrected as it is read. -/
theorem v2sRead_ready (s : State) (w : Warp) (L : Nat) (hp : w.pend = []) (h : (w.lane L).ready w.alloc [(v, 1)] [] = true) :
    laneCheck (v2sRead v b) w L = none ∧ readSoft (v2sRead v b) s w (laneBit L) = (s, w) := by
  simp only [Lane.ready, List.append_nil, List.all_cons, List.all_nil, Bool.and_true, Bool.and_eq_true] at h
  obtain ⟨horder, hsound⟩ := h
  have hcheck := laneCheck_ready (v2sRead v b) w L hp rfl (by simpa [v2sRead] using horder) (by simpa [v2sRead] using hsound)
  refine ⟨hcheck.1, readSoft_none _ s w _ fun L' hL' => ?_⟩
  rw [laneBit_getLsbD, Bool.and_eq_true, decide_eq_true_eq, decide_eq_true_eq] at hL'
  rw [hL'.2]
  exact hcheck.2

theorem v2s_completes (s : State) (w : Warp) (e : FEntry) (h : Runs s w e)
    (hv : (w.lane (lowestLane e.mask)).ready w.alloc [(v, 1)] [] = true) :
    Completes (.v2s d v b) 4 s w e (fun w' => w'.sregs = w.sregs.set d.val ((w.lane (lowestLane e.mask)).v w.alloc v) ∧
      ∀ L, w'.lane L = w.lane L) := by
  obtain ⟨hcheck, hread⟩ := v2sRead_ready v b s.awake.listening (w.setFront (dropLanes w.front e.mask)) (lowestLane e.mask) h.pend hv
  obtain ⟨t, w', hexec, hends, hquiet, hmem, hsregs, hlanes⟩ :=
    issue_completes (.v2s d v b) (v2sKind d v b) _ (fun _ => rfl) [] (v2sField v) (v2sKind_regs d v b) rfl rfl rfl rfl rfl s w e h
      (v2sField_ready v w e _ hv) [] [] (pends_none _ w e (v2sKind_var d v b))
      (Eff.idle s.awake.listening ((w.setFront (dropLanes w.front e.mask)).setS d.val ((w.lane (lowestLane e.mask)).v w.alloc v)))
      (by
        simp only [v2sRead] at hcheck hread
        simp only [Kind.at, hcheck, hread]
        rfl)
      rfl rfl rfl rfl rfl rfl h.noTx rfl rfl rfl rfl rfl rfl rfl
  exact ⟨t, w', hexec, hends, hquiet, hmem, hsregs, fun L => by unfold Warp.lane; rw [hlanes]; rfl⟩

end Scalars

/-- Settles O4: each instruction on scalar registers alone writes its value of R140 to R142 once per warp; `v2s` reads its lowest
active lane alone (R143). -/
theorem scalarResults : Obligations.ScalarResults := by
  unfold Obligations.ScalarResults
  intro d a c v p i j b
  refine ⟨?scalars, v2s_completes d v b, ?compares, s2v_rule a v b⟩
  case scalars =>
    simp only [List.forall_mem_cons]
    exact ⟨scalar3_rule _ b d a c (· + ·) fun _ => rfl, scalar3_rule _ b d a c (· - ·) fun _ => rfl,
      scalar3_rule _ b d a c (· * ·) fun _ => rfl, scalar3_rule _ b d a c (· &&& ·) fun _ => rfl,
      scalar3_rule _ b d a c (· ||| ·) fun _ => rfl, scalar3_rule _ b d a c (· ^^^ ·) fun _ => rfl,
      scalar3_rule _ b d a c (fun x y => x <<< (y.toNat % 32)) fun _ => rfl,
      scalar3_rule _ b d a c (fun x y => x >>> (y.toNat % 32)) fun _ => rfl,
      issue_scalarRule d b (f := fun w => w.sv a.val + i.signExtend 32) (fun _ => rfl) (fun _ _ => rfl),
      issue_scalarRule d b (f := fun _ => j.signExtend 32) (fun _ => rfl) (fun _ _ => rfl),
      issue_scalarRule d b (f := fun w => w.sv a.val) (fun _ => rfl) (fun _ _ => rfl), List.forall_mem_nil _⟩
  case compares =>
    exact scalarPred_table <| .arm (fun _ => rfl) <| .row (funext₂ bne_eq_decide_ne) (fun _ => rfl) <| .arm (fun _ => rfl) <|
      .arm (fun _ => rfl) .nil

end Sys2Proof.Machine
end
